-- ==== Sys2Proof/Word.lean ====
section
/-! DEFINITION. The word type of the block: a byte (spec/00_scope.md R6, R9). -/

namespace Sys2Proof

/-- A byte is 8 bits, bit 7 the most significant (R6). Every quantity of the block is unsigned. -/
abbrev Byte := BitVec 8

end Sys2Proof
end

