-- ==== Sys2Proof/Config.lean ====
section
/-! DEFINITION. What is fixed when the block is built (spec/00_scope.md R4), the one open parameter a rule reads
(RR_STRICT_LENGTH, spec/92_eei_decisions.md D22), and the free values. -/

namespace Sys2Proof

/-- BUF_DEPTH of R4: entries of the receive buffer, indices 0 to 10 (D6). -/
def Config.bufDepth : Nat := 11

/-- DC_MIN of R4: the least legal dataCount. -/
def Config.dcMin : Nat := 1

/-- DC_MAX of R4: the greatest legal dataCount. -/
def Config.dcMax : Nat := 8

/-- HDR_LEN of R4: the length of the header, and of a whole ReadRequest frame. -/
def Config.hdrLen : Nat := 2

/-- OVF_GUARD of R4: the receiver's overflow guard fires when `cnt` is at least this (D8, C5). -/
def Config.ovfGuard : Nat := 11

/-- RR_STRICT_LENGTH (D22, U11), default false: DECODE applies no length check to a ReadRequest, so bytes after the
second are ignored (R103). -/
def Config.rrStrictLength : Bool := false

/-- FREE VALUES (log 2): what an entry of the receive buffer holds after a RESET operation, which leaves the buffer
unspecified (R190, R19, U5). It has no body, so nothing can be proved of a value of it. The argument is the number of
free values taken so far (`State.fresh`). -/
opaque Config.freeByte : Nat → Byte

end Sys2Proof
end

