-- ==== Sys2Proof/Syntax.lean ====
section
/-! DEFINITION. The types of the rules (spec/00_scope.md R9), and `Instr`: one constructor for each of the 38 rows of
spec/opcode_table.json. The table reads the wire in three ways (spec/30_encoding.md R64): by byte class (2 rows), by
frame kind (4 rows over the 16-bit header), and by whole-frame pattern (32 rows, one for each kind and dataCount). -/

namespace Sys2Proof

/-- The four frame kinds, in the order of their 2-bit codes 0 to 3 (R9, R53). -/
inductive Kind where
  | readResponse
  | readRequest
  | writeRequest
  | executeRequest
deriving DecidableEq, Repr

/-- A logical frame (R9). `dc` is the source's `dataCount`; `Frame.wf` says when a frame is well formed. The payload is
opaque bytes (spec/20_memory.md R34). -/
structure Frame where
  kind : Kind
  id : Byte
  dc : Nat
  payload : List Byte
deriving DecidableEq, Repr

/-- The outcome of a codec operation: its value or a named error (R8, R9). -/
inductive Result (ε α : Type) where
  | ok (value : α)
  | err (error : ε)
deriving DecidableEq, Repr

/-- ValidationError of ENCODE (spec/60_exceptions.md R170, R171), its reason with the recorded values of R170. -/
inductive ValidationError where
  /-- DC_RANGE: `dc` is outside 1 to 8. -/
  | dcRange (dc : Nat)
  /-- PAYLOAD_LENGTH: the kind is not ReadRequest and the payload has not `dc` bytes. -/
  | payloadLength (len dc : Nat)
deriving DecidableEq, Repr

/-- MalformedError of DECODE (spec/60_exceptions.md R170, R172), its reason with the recorded values of R170. -/
inductive MalformedError where
  /-- SHORT: fewer than two bytes. -/
  | short (n : Nat)
  /-- HEADER: the first byte `b0` has bit 7 clear. -/
  | header (b0 : Byte)
  /-- MARKER: byte `k`, the least such, has bit 7 set though it is not the first. -/
  | marker (k : Nat)
  /-- LENGTH: `n` bytes where the header predicts `expected`. -/
  | length (n expected : Nat)
deriving DecidableEq, Repr

/-- The instruction set: the wire format (R1, R64). -/
inductive Instr where
  /-- ReadResponse (kind code 0), operands as presented to ENCODE: any `dc`, any payload (R80, R85). -/
  | readResponse (id : Byte) (dc : Nat) (payload : List Byte)
  /-- ReadRequest (kind code 1), operands as presented to ENCODE: any `dc`, any payload; the payload operand is ignored by ENCODE (R80, R84). -/
  | readRequest (id : Byte) (dc : Nat) (payload : List Byte)
  /-- WriteRequest (kind code 2), operands as presented to ENCODE: any `dc`, any payload (R80, R86). -/
  | writeRequest (id : Byte) (dc : Nat) (payload : List Byte)
  /-- ExecuteRequest (kind code 3), operands as presented to ENCODE: any `dc`, any payload (R80, R87). -/
  | executeRequest (id : Byte) (dc : Nat) (payload : List Byte)
  /-- HEADER_BYTE, bit 7 set: `1 kk ddd ii` (R50, R51). -/
  | headerByte (kind : Kind) (dcm1 : BitVec 3) (idHi : BitVec 2)
  /-- CONTINUATION_BYTE, bit 7 clear: seven bits of id, payload or pad by position (R50). -/
  | continuationByte (rest : BitVec 7)
  /-- ReadResponse.dc1: `100000ii 0iiiiiip 0ppppppp`. -/
  | readResponseDc1 (id p0 : Byte)
  /-- ReadResponse.dc2: `100001ii 0iiiiiip 0ppppppp 0ppppppp 0pzzzzzz`. -/
  | readResponseDc2 (id p0 p1 : Byte) (pad : BitVec 6)
  /-- ReadResponse.dc3: `100010ii 0iiiiiip 0ppppppp 0ppppppp 0ppppppp 0ppzzzzz`. -/
  | readResponseDc3 (id p0 p1 p2 : Byte) (pad : BitVec 5)
  /-- ReadResponse.dc4: `100011ii 0iiiiiip 0ppppppp 0ppppppp 0ppppppp 0ppppppp 0pppzzzz`. -/
  | readResponseDc4 (id p0 p1 p2 p3 : Byte) (pad : BitVec 4)
  /-- ReadResponse.dc5: `100100ii 0iiiiiip 0ppppppp 0ppppppp 0ppppppp 0ppppppp 0ppppppp 0ppppzzz`. -/
  | readResponseDc5 (id p0 p1 p2 p3 p4 : Byte) (pad : BitVec 3)
  /-- ReadResponse.dc6: `100101ii 0iiiiiip 0ppppppp 0ppppppp 0ppppppp 0ppppppp 0ppppppp 0ppppppp 0pppppzz`. -/
  | readResponseDc6 (id p0 p1 p2 p3 p4 p5 : Byte) (pad : BitVec 2)
  /-- ReadResponse.dc7: `100110ii 0iiiiiip 0ppppppp 0ppppppp 0ppppppp 0ppppppp 0ppppppp 0ppppppp 0ppppppp 0ppppppz`. -/
  | readResponseDc7 (id p0 p1 p2 p3 p4 p5 p6 : Byte) (pad : BitVec 1)
  /-- ReadResponse.dc8: `100111ii 0iiiiiip 0ppppppp 0ppppppp 0ppppppp 0ppppppp 0ppppppp 0ppppppp 0ppppppp 0ppppppp 0ppppppp`. -/
  | readResponseDc8 (id p0 p1 p2 p3 p4 p5 p6 p7 : Byte)
  /-- ReadRequest.dc1: `101000ii 0iiiiiiz`. -/
  | readRequestDc1 (id : Byte) (z : BitVec 1)
  /-- ReadRequest.dc2: `101001ii 0iiiiiiz`. -/
  | readRequestDc2 (id : Byte) (z : BitVec 1)
  /-- ReadRequest.dc3: `101010ii 0iiiiiiz`. -/
  | readRequestDc3 (id : Byte) (z : BitVec 1)
  /-- ReadRequest.dc4: `101011ii 0iiiiiiz`. -/
  | readRequestDc4 (id : Byte) (z : BitVec 1)
  /-- ReadRequest.dc5: `101100ii 0iiiiiiz`. -/
  | readRequestDc5 (id : Byte) (z : BitVec 1)
  /-- ReadRequest.dc6: `101101ii 0iiiiiiz`. -/
  | readRequestDc6 (id : Byte) (z : BitVec 1)
  /-- ReadRequest.dc7: `101110ii 0iiiiiiz`. -/
  | readRequestDc7 (id : Byte) (z : BitVec 1)
  /-- ReadRequest.dc8: `101111ii 0iiiiiiz`. -/
  | readRequestDc8 (id : Byte) (z : BitVec 1)
  /-- WriteRequest.dc1: `110000ii 0iiiiiip 0ppppppp`. -/
  | writeRequestDc1 (id p0 : Byte)
  /-- WriteRequest.dc2: `110001ii 0iiiiiip 0ppppppp 0ppppppp 0pzzzzzz`. -/
  | writeRequestDc2 (id p0 p1 : Byte) (pad : BitVec 6)
  /-- WriteRequest.dc3: `110010ii 0iiiiiip 0ppppppp 0ppppppp 0ppppppp 0ppzzzzz`. -/
  | writeRequestDc3 (id p0 p1 p2 : Byte) (pad : BitVec 5)
  /-- WriteRequest.dc4: `110011ii 0iiiiiip 0ppppppp 0ppppppp 0ppppppp 0ppppppp 0pppzzzz`. -/
  | writeRequestDc4 (id p0 p1 p2 p3 : Byte) (pad : BitVec 4)
  /-- WriteRequest.dc5: `110100ii 0iiiiiip 0ppppppp 0ppppppp 0ppppppp 0ppppppp 0ppppppp 0ppppzzz`. -/
  | writeRequestDc5 (id p0 p1 p2 p3 p4 : Byte) (pad : BitVec 3)
  /-- WriteRequest.dc6: `110101ii 0iiiiiip 0ppppppp 0ppppppp 0ppppppp 0ppppppp 0ppppppp 0ppppppp 0pppppzz`. -/
  | writeRequestDc6 (id p0 p1 p2 p3 p4 p5 : Byte) (pad : BitVec 2)
  /-- WriteRequest.dc7: `110110ii 0iiiiiip 0ppppppp 0ppppppp 0ppppppp 0ppppppp 0ppppppp 0ppppppp 0ppppppp 0ppppppz`. -/
  | writeRequestDc7 (id p0 p1 p2 p3 p4 p5 p6 : Byte) (pad : BitVec 1)
  /-- WriteRequest.dc8: `110111ii 0iiiiiip 0ppppppp 0ppppppp 0ppppppp 0ppppppp 0ppppppp 0ppppppp 0ppppppp 0ppppppp 0ppppppp`. -/
  | writeRequestDc8 (id p0 p1 p2 p3 p4 p5 p6 p7 : Byte)
  /-- ExecuteRequest.dc1: `111000ii 0iiiiiip 0ppppppp`. -/
  | executeRequestDc1 (id p0 : Byte)
  /-- ExecuteRequest.dc2: `111001ii 0iiiiiip 0ppppppp 0ppppppp 0pzzzzzz`. -/
  | executeRequestDc2 (id p0 p1 : Byte) (pad : BitVec 6)
  /-- ExecuteRequest.dc3: `111010ii 0iiiiiip 0ppppppp 0ppppppp 0ppppppp 0ppzzzzz`. -/
  | executeRequestDc3 (id p0 p1 p2 : Byte) (pad : BitVec 5)
  /-- ExecuteRequest.dc4: `111011ii 0iiiiiip 0ppppppp 0ppppppp 0ppppppp 0ppppppp 0pppzzzz`. -/
  | executeRequestDc4 (id p0 p1 p2 p3 : Byte) (pad : BitVec 4)
  /-- ExecuteRequest.dc5: `111100ii 0iiiiiip 0ppppppp 0ppppppp 0ppppppp 0ppppppp 0ppppppp 0ppppzzz`. -/
  | executeRequestDc5 (id p0 p1 p2 p3 p4 : Byte) (pad : BitVec 3)
  /-- ExecuteRequest.dc6: `111101ii 0iiiiiip 0ppppppp 0ppppppp 0ppppppp 0ppppppp 0ppppppp 0ppppppp 0pppppzz`. -/
  | executeRequestDc6 (id p0 p1 p2 p3 p4 p5 : Byte) (pad : BitVec 2)
  /-- ExecuteRequest.dc7: `111110ii 0iiiiiip 0ppppppp 0ppppppp 0ppppppp 0ppppppp 0ppppppp 0ppppppp 0ppppppp 0ppppppz`. -/
  | executeRequestDc7 (id p0 p1 p2 p3 p4 p5 p6 : Byte) (pad : BitVec 1)
  /-- ExecuteRequest.dc8: `111111ii 0iiiiiip 0ppppppp 0ppppppp 0ppppppp 0ppppppp 0ppppppp 0ppppppp 0ppppppp 0ppppppp 0ppppppp`. -/
  | executeRequestDc8 (id p0 p1 p2 p3 p4 p5 p6 p7 : Byte)
deriving DecidableEq, Repr

end Sys2Proof
end

