-- ==== Sys2Proof/WellFormed.lean ====
section
/-! DEFINITION. Which frames and which instructions are well formed (spec/00_scope.md R9, R54). The pattern rows and the
byte-class rows are well formed by their types: their counts and widths are in the constructors. -/

namespace Sys2Proof

/-- The invariant of a well-formed frame (R9): `dc` is in 1 to 8; a ReadRequest carries no payload; every other kind
carries `dc` bytes. -/
def Frame.wf (f : Frame) : Bool :=
  decide (Config.dcMin ≤ f.dc) && decide (f.dc ≤ Config.dcMax) &&
    (if f.kind = .readRequest then decide (f.payload = []) else decide (f.payload.length = f.dc))

/-- A kind row is well formed when its operands make a well-formed frame (R9); every other row always is. -/
def Instr.wf : Instr → Bool
  | .readResponse id dc payload => Frame.wf ⟨.readResponse, id, dc, payload⟩
  | .readRequest id dc payload => Frame.wf ⟨.readRequest, id, dc, payload⟩
  | .writeRequest id dc payload => Frame.wf ⟨.writeRequest, id, dc, payload⟩
  | .executeRequest id dc payload => Frame.wf ⟨.executeRequest, id, dc, payload⟩
  | .headerByte .. | .continuationByte ..
  | .readResponseDc1 .. | .readResponseDc2 .. | .readResponseDc3 .. | .readResponseDc4 .. | .readResponseDc5 .. | .readResponseDc6 .. | .readResponseDc7 .. | .readResponseDc8 ..
  | .readRequestDc1 .. | .readRequestDc2 .. | .readRequestDc3 .. | .readRequestDc4 .. | .readRequestDc5 .. | .readRequestDc6 .. | .readRequestDc7 .. | .readRequestDc8 ..
  | .writeRequestDc1 .. | .writeRequestDc2 .. | .writeRequestDc3 .. | .writeRequestDc4 .. | .writeRequestDc5 .. | .writeRequestDc6 .. | .writeRequestDc7 .. | .writeRequestDc8 ..
  | .executeRequestDc1 .. | .executeRequestDc2 .. | .executeRequestDc3 .. | .executeRequestDc4 .. | .executeRequestDc5 .. | .executeRequestDc6 .. | .executeRequestDc7 .. | .executeRequestDc8 .. => true

end Sys2Proof
end

