-- ==== Sys2Proof/Decode.lean ====
section
/-! DEFINITION. The codec and the reading of the wire: header fields, ENCODE with PACK (spec/40_encode.md), DECODE with
UNPACK (spec/41_decode.md), ISHEADER and FRAMELEN, and from these the decoder of `Instr` (total on any bytes, rejecting by
the names of MalformedError), its encoder, and the host's `decodeTableWord`. -/

namespace Sys2Proof

/-! ## Fields of the header (spec/30_encoding.md R50 to R55, R66) -/

/-- ISHEADER: the marker test (R50, R109). -/
def isHeader (b : Byte) : Bool := b.getLsbD 7

/-- The 2-bit kind code (R53). -/
def Kind.code : Kind → BitVec 2
  | .readResponse => 0
  | .readRequest => 1
  | .writeRequest => 2
  | .executeRequest => 3

/-- The kind of a code: all four codes are kinds (R53). -/
def Kind.ofCode (c : BitVec 2) : Kind :=
  if c = 0 then .readResponse else if c = 1 then .readRequest else if c = 2 then .writeRequest else .executeRequest

/-- `w[0][6:5]` as a kind (R51, R66). -/
def kindOf (b0 : Byte) : Kind := Kind.ofCode (b0.extractLsb' 5 2)

/-- `w[0][4:2]`, which holds `dc - 1` (R54). -/
def dcm1Of (b0 : Byte) : BitVec 3 := b0.extractLsb' 2 3

/-- `dc = w[0][4:2] + 1`, in 1 to 8 (R54, R66). -/
def dcOf (b0 : Byte) : Nat := (dcm1Of b0).toNat + 1

/-- `id = ((w[0] & 0x03) << 6) | ((w[1] >> 1) & 0x3F)` (R55). -/
def idOf (b0 b1 : Byte) : Byte := ((b0 &&& 0x03#8) <<< 6) ||| ((b1 >>> 1) &&& 0x3F#8)

/-! ## Frame length (R56, R110) -/

/-- LEN: wire bytes of a frame that is not a ReadRequest (R4, R56, C1). -/
def lenOf (dc : Nat) : Nat := (8 * dc + 5) / 7 + 2

/-- FRAMELEN (R56, R110). -/
def frameLen (kind : Kind) (dc : Nat) : Nat :=
  if kind = .readRequest then Config.hdrLen else lenOf dc

/-- FRAMELEN_H: the length a header byte predicts (R63, R110). -/
def frameLenH (h : Byte) : Nat := frameLen (kindOf h) (dcOf h)

/-- Bits of the last wire byte that carry nothing: pad bits (R56's table, R60), and `w[1][0]` of a ReadRequest (R61). -/
def ignoredBits (kind : Kind) (dc : Nat) : Nat :=
  if kind = .readRequest then 1 else 7 * (lenOf dc - 2) - (8 * dc - 1)

/-! ## ENCODE (spec/40_encode.md) -/

/-- `w[0]` as R83 builds it. -/
def header0 (kind : Kind) (dc : Nat) (id : Byte) : Byte :=
  0x80#8 ||| (kind.code.setWidth 8 <<< 5) ||| (BitVec.ofNat 8 (dc - 1) <<< 2) ||| (id >>> 6)

/-- `w[1]` as R83 first builds it; PACK fills its bit 0. -/
def header1 (id : Byte) : Byte := (id &&& 0x3F#8) <<< 1

/-- PACK's loop (R88): `i` is the byte that takes the high part of the next payload byte, `pos` the rotating offset. The
shift left is masked to seven bits, so shifting in eight bits loses nothing that R88's unbounded shift keeps. -/
def packLoop : List Byte → Nat → Nat → List Byte → List Byte
  | [], _, _, w => w
  | v :: vs, i, pos, w =>
    let w := (w.modify i (fun x => x ||| (v >>> (7 - pos)))).set (i + 1) ((v <<< pos) &&& 0x7F#8)
    if pos = 0 then packLoop vs (i + 2) 6 w else packLoop vs (i + 1) (pos - 1) w

/-- PACK from its start, `i = 1` and `pos = 0` (R88). -/
def pack (payload w : List Byte) : List Byte := packLoop payload 1 0 w

/-- The two header bytes followed by the zero tail bytes PACK fills (R85). -/
def blankFrame (kind : Kind) (id : Byte) (dc : Nat) : List Byte :=
  header0 kind dc id :: header1 id :: List.replicate (lenOf dc - 2) 0

/-- ENCODE (R80 to R87): DC_RANGE, then PAYLOAD_LENGTH for every kind but ReadRequest, then the header, then PACK. -/
def encodeFrame (kind : Kind) (id : Byte) (dc : Nat) (payload : List Byte) : Result ValidationError (List Byte) :=
  if dc < Config.dcMin ∨ Config.dcMax < dc then .err (.dcRange dc)
  else if kind = .readRequest then .ok [header0 kind dc id, header1 id]
  else if payload.length ≠ dc then .err (.payloadLength payload.length dc)
  else .ok (pack payload (blankFrame kind id dc))

/-! ## DECODE (spec/41_decode.md) -/

/-- UNPACK's loop (R106), `n` payload bytes still to rebuild. `trunc8` is the eight-bit width of the shifts. -/
def unpackLoop : Nat → Nat → Nat → List Byte → List Byte
  | 0, _, _, _ => []
  | n + 1, i, pos, bs =>
    let v := (bs.getD i 0 <<< (7 - pos)) ||| (bs.getD (i + 1) 0 >>> pos)
    v :: (if pos = 0 then unpackLoop n (i + 2) 6 bs else unpackLoop n (i + 1) (pos - 1) bs)

/-- UNPACK of `dc` payload bytes from its start (R106). -/
def unpack (dc : Nat) (bs : List Byte) : List Byte := unpackLoop dc 1 0 bs

/-- The least index of a byte with bit 7 set, the list's first byte having index `k`. -/
def firstMarker : Nat → List Byte → Option Nat
  | _, [] => none
  | k, b :: bs => if isHeader b then some k else firstMarker (k + 1) bs

/-- DECODE with RR_STRICT_LENGTH an argument: the checks of R108 in its order. -/
def decodeFrameWith (strict : Bool) (bs : List Byte) : Result MalformedError Frame :=
  match bs with
  | [] => .err (.short 0)
  | [_] => .err (.short 1)
  | b0 :: b1 :: tail =>
    let n := tail.length + 2
    if !isHeader b0 then .err (.header b0)
    else if isHeader b1 then .err (.marker 1)
    else if kindOf b0 = .readRequest then
      if strict && decide (n ≠ Config.hdrLen) then .err (.length n Config.hdrLen)
      else .ok ⟨.readRequest, idOf b0 b1, dcOf b0, []⟩
    else if n ≠ lenOf (dcOf b0) then .err (.length n (lenOf (dcOf b0)))
    else match firstMarker 2 tail with
      | some k => .err (.marker k)
      | none => .ok ⟨kindOf b0, idOf b0 b1, dcOf b0, unpack (dcOf b0) (b0 :: b1 :: tail)⟩

/-- DECODE (R100 to R108). -/
def decodeFrame (bs : List Byte) : Result MalformedError Frame := decodeFrameWith Config.rrStrictLength bs

/-! ## Reading `Instr` from the wire -/

/-- The byte-class row a byte belongs to (R50). -/
def decodeByte (b : Byte) : Instr :=
  if isHeader b then .headerByte (kindOf b) (dcm1Of b) (b.extractLsb' 0 2) else .continuationByte (b.extractLsb' 0 7)

/-- The kind row of a frame's operands. -/
def Instr.ofFrame (f : Frame) : Instr :=
  match f.kind with
  | .readResponse => .readResponse f.id f.dc f.payload
  | .readRequest => .readRequest f.id f.dc f.payload
  | .writeRequest => .writeRequest f.id f.dc f.payload
  | .executeRequest => .executeRequest f.id f.dc f.payload

/-- The pattern row of a decoded frame whose last wire byte is `last` (R57, R59, R64): the row is chosen by kind and
`dc`, the ignored bits are read from `last`. -/
def Instr.ofPattern (f : Frame) (last : Byte) : Instr :=
  let p := fun j => f.payload.getD j 0
  match f.kind, f.dc with
  | .readResponse, 1 => .readResponseDc1 f.id (p 0)
  | .readResponse, 2 => .readResponseDc2 f.id (p 0) (p 1) (last.extractLsb' 0 6)
  | .readResponse, 3 => .readResponseDc3 f.id (p 0) (p 1) (p 2) (last.extractLsb' 0 5)
  | .readResponse, 4 => .readResponseDc4 f.id (p 0) (p 1) (p 2) (p 3) (last.extractLsb' 0 4)
  | .readResponse, 5 => .readResponseDc5 f.id (p 0) (p 1) (p 2) (p 3) (p 4) (last.extractLsb' 0 3)
  | .readResponse, 6 => .readResponseDc6 f.id (p 0) (p 1) (p 2) (p 3) (p 4) (p 5) (last.extractLsb' 0 2)
  | .readResponse, 7 => .readResponseDc7 f.id (p 0) (p 1) (p 2) (p 3) (p 4) (p 5) (p 6) (last.extractLsb' 0 1)
  | .readResponse, _ => .readResponseDc8 f.id (p 0) (p 1) (p 2) (p 3) (p 4) (p 5) (p 6) (p 7)
  | .readRequest, 1 => .readRequestDc1 f.id (last.extractLsb' 0 1)
  | .readRequest, 2 => .readRequestDc2 f.id (last.extractLsb' 0 1)
  | .readRequest, 3 => .readRequestDc3 f.id (last.extractLsb' 0 1)
  | .readRequest, 4 => .readRequestDc4 f.id (last.extractLsb' 0 1)
  | .readRequest, 5 => .readRequestDc5 f.id (last.extractLsb' 0 1)
  | .readRequest, 6 => .readRequestDc6 f.id (last.extractLsb' 0 1)
  | .readRequest, 7 => .readRequestDc7 f.id (last.extractLsb' 0 1)
  | .readRequest, _ => .readRequestDc8 f.id (last.extractLsb' 0 1)
  | .writeRequest, 1 => .writeRequestDc1 f.id (p 0)
  | .writeRequest, 2 => .writeRequestDc2 f.id (p 0) (p 1) (last.extractLsb' 0 6)
  | .writeRequest, 3 => .writeRequestDc3 f.id (p 0) (p 1) (p 2) (last.extractLsb' 0 5)
  | .writeRequest, 4 => .writeRequestDc4 f.id (p 0) (p 1) (p 2) (p 3) (last.extractLsb' 0 4)
  | .writeRequest, 5 => .writeRequestDc5 f.id (p 0) (p 1) (p 2) (p 3) (p 4) (last.extractLsb' 0 3)
  | .writeRequest, 6 => .writeRequestDc6 f.id (p 0) (p 1) (p 2) (p 3) (p 4) (p 5) (last.extractLsb' 0 2)
  | .writeRequest, 7 => .writeRequestDc7 f.id (p 0) (p 1) (p 2) (p 3) (p 4) (p 5) (p 6) (last.extractLsb' 0 1)
  | .writeRequest, _ => .writeRequestDc8 f.id (p 0) (p 1) (p 2) (p 3) (p 4) (p 5) (p 6) (p 7)
  | .executeRequest, 1 => .executeRequestDc1 f.id (p 0)
  | .executeRequest, 2 => .executeRequestDc2 f.id (p 0) (p 1) (last.extractLsb' 0 6)
  | .executeRequest, 3 => .executeRequestDc3 f.id (p 0) (p 1) (p 2) (last.extractLsb' 0 5)
  | .executeRequest, 4 => .executeRequestDc4 f.id (p 0) (p 1) (p 2) (p 3) (last.extractLsb' 0 4)
  | .executeRequest, 5 => .executeRequestDc5 f.id (p 0) (p 1) (p 2) (p 3) (p 4) (last.extractLsb' 0 3)
  | .executeRequest, 6 => .executeRequestDc6 f.id (p 0) (p 1) (p 2) (p 3) (p 4) (p 5) (last.extractLsb' 0 2)
  | .executeRequest, 7 => .executeRequestDc7 f.id (p 0) (p 1) (p 2) (p 3) (p 4) (p 5) (p 6) (last.extractLsb' 0 1)
  | .executeRequest, _ => .executeRequestDc8 f.id (p 0) (p 1) (p 2) (p 3) (p 4) (p 5) (p 6) (p 7)

/-- The three ways the table reads the wire (R64): one byte by its class, a whole frame by its pattern, a whole frame by
its kind. -/
inductive View where
  | byte
  | pattern
  | kind
deriving DecidableEq, Repr

/-- The frame at the head of a byte list (its header byte says its length, R63), decoded, with its last byte and the
bytes after it. -/
def frameAtHead (bs : List Byte) : Result MalformedError (Frame × Byte × List Byte) :=
  let n := frameLenH (bs.headD 0)
  match decodeFrame (bs.take n) with
  | .err e => .err e
  | .ok f => .ok (f, bs.getD (n - 1) 0, bs.drop n)

/-- The decoder: the instruction at the head of a byte list in the given view, with the bytes after it. Total; what it
refuses it refuses by a name of MalformedError. -/
def decodeAs (v : View) (bs : List Byte) : Result MalformedError (Instr × List Byte) :=
  match v with
  | .byte => match bs with
    | [] => .err (.short 0)
    | b :: rest => .ok (decodeByte b, rest)
  | .pattern => match frameAtHead bs with
    | .err e => .err e
    | .ok (f, last, rest) => .ok (Instr.ofPattern f last, rest)
  | .kind => match frameAtHead bs with
    | .err e => .err e
    | .ok (f, _, rest) => .ok (Instr.ofFrame f, rest)

/-- The pattern row of a byte list that is exactly one frame. -/
def wholePattern (bs : List Byte) : Option Instr :=
  match decodeAs .pattern bs with
  | .ok (i, []) => some i
  | _ => none

/-! ## Encoding `Instr` -/

/-- What a frame row holds: the operands of ENCODE, and the ignored bits of its last wire byte (0 in a kind row). -/
structure FrameOperands where
  kind : Kind
  id : Byte
  dc : Nat
  payload : List Byte
  ignored : Byte
deriving DecidableEq, Repr

/-- The operands of a frame row; the byte-class rows have none. -/
def Instr.frameOperands : Instr → Option FrameOperands
  | .readResponse id dc payload => some ⟨.readResponse, id, dc, payload, 0⟩
  | .readRequest id dc payload => some ⟨.readRequest, id, dc, payload, 0⟩
  | .writeRequest id dc payload => some ⟨.writeRequest, id, dc, payload, 0⟩
  | .executeRequest id dc payload => some ⟨.executeRequest, id, dc, payload, 0⟩
  | .headerByte _ _ _ => none
  | .continuationByte _ => none
  | .readResponseDc1 id p0 => some ⟨.readResponse, id, 1, [p0], 0⟩
  | .readResponseDc2 id p0 p1 pad => some ⟨.readResponse, id, 2, [p0, p1], pad.setWidth 8⟩
  | .readResponseDc3 id p0 p1 p2 pad => some ⟨.readResponse, id, 3, [p0, p1, p2], pad.setWidth 8⟩
  | .readResponseDc4 id p0 p1 p2 p3 pad => some ⟨.readResponse, id, 4, [p0, p1, p2, p3], pad.setWidth 8⟩
  | .readResponseDc5 id p0 p1 p2 p3 p4 pad => some ⟨.readResponse, id, 5, [p0, p1, p2, p3, p4], pad.setWidth 8⟩
  | .readResponseDc6 id p0 p1 p2 p3 p4 p5 pad => some ⟨.readResponse, id, 6, [p0, p1, p2, p3, p4, p5], pad.setWidth 8⟩
  | .readResponseDc7 id p0 p1 p2 p3 p4 p5 p6 pad => some ⟨.readResponse, id, 7, [p0, p1, p2, p3, p4, p5, p6], pad.setWidth 8⟩
  | .readResponseDc8 id p0 p1 p2 p3 p4 p5 p6 p7 => some ⟨.readResponse, id, 8, [p0, p1, p2, p3, p4, p5, p6, p7], 0⟩
  | .readRequestDc1 id z => some ⟨.readRequest, id, 1, [], z.setWidth 8⟩
  | .readRequestDc2 id z => some ⟨.readRequest, id, 2, [], z.setWidth 8⟩
  | .readRequestDc3 id z => some ⟨.readRequest, id, 3, [], z.setWidth 8⟩
  | .readRequestDc4 id z => some ⟨.readRequest, id, 4, [], z.setWidth 8⟩
  | .readRequestDc5 id z => some ⟨.readRequest, id, 5, [], z.setWidth 8⟩
  | .readRequestDc6 id z => some ⟨.readRequest, id, 6, [], z.setWidth 8⟩
  | .readRequestDc7 id z => some ⟨.readRequest, id, 7, [], z.setWidth 8⟩
  | .readRequestDc8 id z => some ⟨.readRequest, id, 8, [], z.setWidth 8⟩
  | .writeRequestDc1 id p0 => some ⟨.writeRequest, id, 1, [p0], 0⟩
  | .writeRequestDc2 id p0 p1 pad => some ⟨.writeRequest, id, 2, [p0, p1], pad.setWidth 8⟩
  | .writeRequestDc3 id p0 p1 p2 pad => some ⟨.writeRequest, id, 3, [p0, p1, p2], pad.setWidth 8⟩
  | .writeRequestDc4 id p0 p1 p2 p3 pad => some ⟨.writeRequest, id, 4, [p0, p1, p2, p3], pad.setWidth 8⟩
  | .writeRequestDc5 id p0 p1 p2 p3 p4 pad => some ⟨.writeRequest, id, 5, [p0, p1, p2, p3, p4], pad.setWidth 8⟩
  | .writeRequestDc6 id p0 p1 p2 p3 p4 p5 pad => some ⟨.writeRequest, id, 6, [p0, p1, p2, p3, p4, p5], pad.setWidth 8⟩
  | .writeRequestDc7 id p0 p1 p2 p3 p4 p5 p6 pad => some ⟨.writeRequest, id, 7, [p0, p1, p2, p3, p4, p5, p6], pad.setWidth 8⟩
  | .writeRequestDc8 id p0 p1 p2 p3 p4 p5 p6 p7 => some ⟨.writeRequest, id, 8, [p0, p1, p2, p3, p4, p5, p6, p7], 0⟩
  | .executeRequestDc1 id p0 => some ⟨.executeRequest, id, 1, [p0], 0⟩
  | .executeRequestDc2 id p0 p1 pad => some ⟨.executeRequest, id, 2, [p0, p1], pad.setWidth 8⟩
  | .executeRequestDc3 id p0 p1 p2 pad => some ⟨.executeRequest, id, 3, [p0, p1, p2], pad.setWidth 8⟩
  | .executeRequestDc4 id p0 p1 p2 p3 pad => some ⟨.executeRequest, id, 4, [p0, p1, p2, p3], pad.setWidth 8⟩
  | .executeRequestDc5 id p0 p1 p2 p3 p4 pad => some ⟨.executeRequest, id, 5, [p0, p1, p2, p3, p4], pad.setWidth 8⟩
  | .executeRequestDc6 id p0 p1 p2 p3 p4 p5 pad => some ⟨.executeRequest, id, 6, [p0, p1, p2, p3, p4, p5], pad.setWidth 8⟩
  | .executeRequestDc7 id p0 p1 p2 p3 p4 p5 p6 pad => some ⟨.executeRequest, id, 7, [p0, p1, p2, p3, p4, p5, p6], pad.setWidth 8⟩
  | .executeRequestDc8 id p0 p1 p2 p3 p4 p5 p6 p7 => some ⟨.executeRequest, id, 8, [p0, p1, p2, p3, p4, p5, p6, p7], 0⟩

/-- The wire bytes of a frame row: ENCODE's bytes with the ignored bits put into the last one. Operands that ENCODE
rejects have no wire bytes. -/
def FrameOperands.wire (o : FrameOperands) : List Byte :=
  match encodeFrame o.kind o.id o.dc o.payload with
  | .ok w => w.modify (w.length - 1) (fun x => x ||| o.ignored)
  | .err _ => []

/-- The header byte of the three fields of R51. -/
def headerByteOf (kind : Kind) (dcm1 : BitVec 3) (idHi : BitVec 2) : Byte :=
  0x80#8 ||| (kind.code.setWidth 8 <<< 5) ||| (dcm1.setWidth 8 <<< 2) ||| idHi.setWidth 8

/-- The continuation byte of its seven low bits (R50). -/
def continuationByteOf (rest : BitVec 7) : Byte := rest.setWidth 8

/-- The encoder: the wire bytes of an instruction. -/
def encode (i : Instr) : List Byte :=
  match i with
  | .headerByte kind dcm1 idHi => [headerByteOf kind dcm1 idHi]
  | .continuationByte rest => [continuationByteOf rest]
  | i => match i.frameOperands with
    | some o => o.wire
    | none => []

/-- The view that reads an instruction's row. -/
def Instr.view : Instr → View
  | .readResponse _ _ _ => .kind
  | .readRequest _ _ _ => .kind
  | .writeRequest _ _ _ => .kind
  | .executeRequest _ _ _ => .kind
  | .headerByte _ _ _ => .byte
  | .continuationByte _ => .byte
  | .readResponseDc1 _ _ => .pattern
  | .readResponseDc2 _ _ _ _ => .pattern
  | .readResponseDc3 _ _ _ _ _ => .pattern
  | .readResponseDc4 _ _ _ _ _ _ => .pattern
  | .readResponseDc5 _ _ _ _ _ _ _ => .pattern
  | .readResponseDc6 _ _ _ _ _ _ _ _ => .pattern
  | .readResponseDc7 _ _ _ _ _ _ _ _ _ => .pattern
  | .readResponseDc8 _ _ _ _ _ _ _ _ _ => .pattern
  | .readRequestDc1 _ _ => .pattern
  | .readRequestDc2 _ _ => .pattern
  | .readRequestDc3 _ _ => .pattern
  | .readRequestDc4 _ _ => .pattern
  | .readRequestDc5 _ _ => .pattern
  | .readRequestDc6 _ _ => .pattern
  | .readRequestDc7 _ _ => .pattern
  | .readRequestDc8 _ _ => .pattern
  | .writeRequestDc1 _ _ => .pattern
  | .writeRequestDc2 _ _ _ _ => .pattern
  | .writeRequestDc3 _ _ _ _ _ => .pattern
  | .writeRequestDc4 _ _ _ _ _ _ => .pattern
  | .writeRequestDc5 _ _ _ _ _ _ _ => .pattern
  | .writeRequestDc6 _ _ _ _ _ _ _ _ => .pattern
  | .writeRequestDc7 _ _ _ _ _ _ _ _ _ => .pattern
  | .writeRequestDc8 _ _ _ _ _ _ _ _ _ => .pattern
  | .executeRequestDc1 _ _ => .pattern
  | .executeRequestDc2 _ _ _ _ => .pattern
  | .executeRequestDc3 _ _ _ _ _ => .pattern
  | .executeRequestDc4 _ _ _ _ _ _ => .pattern
  | .executeRequestDc5 _ _ _ _ _ _ _ => .pattern
  | .executeRequestDc6 _ _ _ _ _ _ _ _ => .pattern
  | .executeRequestDc7 _ _ _ _ _ _ _ _ _ => .pattern
  | .executeRequestDc8 _ _ _ _ _ _ _ _ _ => .pattern

/-! ## The words of spec/opcode_table.json -/

/-- The bytes of a table word, first wire byte first, followed by zero bytes up to the longest frame. A 16-bit word is
the header H of R64, whose high byte is `w[0]`; in every other width the first byte is the least significant. -/
def tableBytes (nbits w : Nat) : List Byte :=
  if nbits = 16 then [BitVec.ofNat 8 (w / 256), BitVec.ofNat 8 w] ++ List.replicate 9 0
  else (List.range (nbits / 8)).map (fun k => BitVec.ofNat 8 (w / 2 ^ (8 * k))) ++ List.replicate (11 - nbits / 8) 0

/-- The view that reads a table word: a 16-bit word is a kind row's header; any other word is a pattern row's `w[0]` when
its first byte has the marker (every header byte is the first byte of exactly one pattern), and CONTINUATION_BYTE's
otherwise. -/
def tableView (nbits w : Nat) : View :=
  if nbits = 16 then .kind else if isHeader (BitVec.ofNat 8 w) then .pattern else .byte

/-- The instruction the decoder reads from a word of spec/opcode_table.json, all further bytes zero. -/
def decodeTableWord (nbits w : Nat) : Option Instr :=
  match decodeAs (tableView nbits w) (tableBytes nbits w) with
  | .ok (i, _) => some i
  | .err _ => none

end Sys2Proof
end

