-- ==== Sys2Proof/Machine/State.lean ====
section
/-! DEFINITION. The state of the machine: the receiver state, which is the whole architectural state of the block
(spec/10_state.md R10), and the model's plain-data record of what crosses the block's boundary (spec/43_environment.md
R162): what has been presented and not yet taken, and what each agent has given back. -/

namespace Sys2Proof.Machine

/-- RxState of R9 and R10: the byte counter (R11, 4 bits, D7) and the frame buffer (R12, 11 bytes, D6). `cnt = 0` is
AwaitHeader, `cnt ≥ 1` is Collecting. -/
structure RxState where
  cnt : BitVec 4
  buf : Vector Byte 11
deriving DecidableEq, Repr

/-- The agents of the block (R5). -/
inductive Agent where
  /-- TX: one step is one ENCODE call. -/
  | tx
  /-- DEC: one step is one explicit DECODE call. -/
  | dec
  /-- RX: one step is the consumption of one input byte, or of one ingestion pass. -/
  | rx
deriving DecidableEq, Repr

/-- What the Host and the Transport may present to the block (R162, D2). -/
inductive Input where
  /-- The Transport presents one byte (RXBYTE, R120). -/
  | rxByte (b : Byte)
  /-- The Transport presents a batch, one ingestion pass (RXRUN, R130, R151). -/
  | rxRun (bs : List Byte)
  /-- The Host calls ENCODE with any operands (R80). -/
  | encode (kind : Kind) (id : Byte) (dc : Nat) (payload : List Byte)
  /-- The Host calls DECODE on any byte list (R100). -/
  | decode (bs : List Byte)
  /-- The Host calls ISHEADER (R109). -/
  | isHeader (b : Byte)
  /-- The Host calls FRAMELEN; `dc = dcm1 + 1` is in 1 to 8, as R110 has its operand (log 9). -/
  | frameLen (kind : Kind) (dcm1 : BitVec 3)
  /-- The Host calls FRAMELEN_H (R110). -/
  | frameLenH (h : Byte)
  /-- RESET (R190). -/
  | reset
deriving DecidableEq, Repr

/-- What a helper call gave back. -/
inductive HelperResult where
  /-- ISHEADER's Boolean (R109). -/
  | isHeader (value : Bool)
  /-- FRAMELEN's or FRAMELEN_H's number of bytes (R110). -/
  | frameLen (value : Nat)
deriving DecidableEq, Repr

/-- A closed type with NO value: the block has no fault. An error of ENCODE or DECODE is a result returned to the caller
that changes no state (R8, R176), a drop is not an error (R173), and RXBYTE never errs and never sticks (R8, R120). Nobody
raises one; that is safe, since a claim about a next state is never made true by a stop. -/
inductive Fault where
deriving DecidableEq, Repr

/-- Why a step gives no meaning to an instruction. -/
inductive Refusal where
  /-- The instruction named has no meaning yet. Raised only by a refused arm of `exec`; no arm is refused now. Safe. -/
  | notModelled (mnemonic : String)
deriving DecidableEq, Repr

/-- The state. `rx` is the block's own (R10). The rest is the model's record of the boundary: `pending`, the interactions
presented and not yet taken, the next one first (R30's input stream, R162); `agent`, which agent takes the step (R5, log 5);
`emitted`, the frames RX emitted, in emission order (R39); `encoded`, `decoded` and `helpers`, the results of the calls to
ENCODE, DECODE and the helper functions, each in call order (log 4); `fresh`, how many free values have been taken (log 2). -/
structure State where
  rx : RxState
  pending : List Input
  agent : Agent
  emitted : List Frame
  encoded : List (Result ValidationError (List Byte))
  decoded : List (Result MalformedError Frame)
  helpers : List HelperResult
  fresh : Nat
deriving DecidableEq, Repr

/-- The receiver after reset: `cnt = 0` (R19, R190). The buffer's content is unspecified and unobservable (R17, R19);
DESIGN CHOICE: every entry 0 (log 1). -/
def RxState.reset : RxState := { cnt := 0, buf := #v[0, 0, 0, 0, 0, 0, 0, 0, 0, 0, 0] }

/-- The machine right after reset: the receiver in AwaitHeader, nothing presented, nothing given back (R19). DESIGN CHOICE:
`agent` is RX (log 5) and `fresh` is 0 (log 2). -/
def State.reset : State :=
  { rx := RxState.reset, pending := [], agent := .rx, emitted := [], encoded := [], decoded := [], helpers := [], fresh := 0 }

end Sys2Proof.Machine
end

