-- ==== Sys2Proof/Machine/Ops.lean ====
section
/-! DEFINITION. The named operations: the receiver's buffer and its views, RXBYTE, RXRUN, RESET, and the operations of the
whole machine, among them how the next input is fetched. An error of the codec is "taken" by `State.transmit` and
`State.decodeCall`: it becomes the call's result and nothing else changes (spec/60_exceptions.md R176); there is nothing to
return from (R177). -/

namespace Sys2Proof.Machine

/-! ## The receiver (spec/10_state.md, spec/42_rx_sync.md) -/

/-- `buf[i]` (R7, R12); there is no entry 11 (R31), so an index past the buffer reads as nothing. -/
def RxState.entry (r : RxState) (i : Nat) : Option Byte := r.buf[i]?

/-- `buf[i] <- b` (R7, R12). Rule 3 keeps every store at an index below 11 (R123); an index past the buffer would write
nothing. -/
def RxState.store (r : RxState) (i : Nat) (b : Byte) : Vector Byte 11 := r.buf.setIfInBounds i b

/-- `buf[0..n-1]`. -/
def RxState.contents (r : RxState) (n : Nat) : List Byte := r.buf.toList.take n

/-- `rx_kind` (R13). -/
def RxState.kind (r : RxState) : Kind := kindOf r.buf[0]

/-- `rx_dc` (R13). -/
def RxState.dc (r : RxState) : Nat := dcOf r.buf[0]

/-- `rx_L`, the length the header in `buf[0]` predicts (R13, R126). -/
def RxState.expectedLen (r : RxState) : Nat := frameLenH r.buf[0]

/-- What the decoder makes of a completed frame: the frame to emit, or none where DECODE fails (R127, R128). -/
def frameOf (bs : List Byte) : Option Frame :=
  match decodeFrame bs with
  | .ok f => some f
  | .err _ => none

/-- The completion predicate and action, evaluated after rule 1 or rule 4 (R126, R127, R128). -/
def RxState.complete (r : RxState) : RxState × Option Frame :=
  if r.cnt.toNat = r.expectedLen then ({ r with cnt := 0 }, frameOf (r.contents r.cnt.toNat)) else (r, none)

/-- RXBYTE, the whole step (R129): rules 1 to 4 in their order, then completion. -/
def rxByte (r : RxState) (b : Byte) : RxState × Option Frame :=
  if isHeader b then RxState.complete { cnt := 1, buf := r.store 0 b }
  else if r.cnt = 0 then (r, none)
  else if Config.ovfGuard ≤ r.cnt.toNat then ({ r with cnt := 0 }, none)
  else RxState.complete { cnt := r.cnt + 1, buf := r.store r.cnt.toNat b }

/-- RXRUN: RXBYTE over a list of bytes, the emitted frames in order (R130). -/
def rxRun (r : RxState) : List Byte → RxState × List Frame
  | [] => (r, [])
  | b :: rest =>
    let one := rxByte r b
    let more := rxRun one.1 rest
    (more.1, one.2.toList ++ more.2)

/-! ## The machine -/

/-- RX consumes bytes in order and emits what completes (R130, R39). -/
def State.receive (s : State) (bs : List Byte) : State :=
  { s with rx := (rxRun s.rx bs).1, emitted := s.emitted ++ (rxRun s.rx bs).2 }

/-- TX takes one ENCODE call: its bytes or its ValidationError go back to the caller, no other effect (R80, R176). -/
def State.transmit (s : State) (kind : Kind) (id : Byte) (dc : Nat) (payload : List Byte) : State :=
  { s with encoded := s.encoded ++ [encodeFrame kind id dc payload] }

/-- DEC takes one explicit DECODE call: its frame or its MalformedError goes back to the caller, no other effect (R100,
R172, R176). -/
def State.decodeCall (s : State) (bs : List Byte) : State :=
  { s with decoded := s.decoded ++ [decodeFrame bs] }

/-- A helper call gives back its value. -/
def State.helperCall (s : State) (v : HelperResult) : State := { s with helpers := s.helpers ++ [v] }

/-- A buffer of eleven free values, from the `n`-th on (R190: `buf` is left unspecified; log 2). -/
def freeBuf (n : Nat) : Vector Byte 11 :=
  #v[Config.freeByte n, Config.freeByte (n + 1), Config.freeByte (n + 2), Config.freeByte (n + 3), Config.freeByte (n + 4),
     Config.freeByte (n + 5), Config.freeByte (n + 6), Config.freeByte (n + 7), Config.freeByte (n + 8),
     Config.freeByte (n + 9), Config.freeByte (n + 10)]

/-- RESET (R190): `cnt <- 0`, `buf` unspecified; nothing is emitted, encoder and decoder have no state to reset. -/
def State.resetRx (s : State) : State :=
  { s with rx := { cnt := 0, buf := freeBuf s.fresh }, fresh := s.fresh + 11 }

/-! ## Taking the next input -/

/-- The agent that takes an input (R5). The helper functions are pure and belong to no agent; RESET writes the receiver. -/
def Input.agent : Input → Option Agent
  | .rxByte _ => some .rx
  | .rxRun _ => some .rx
  | .encode _ _ _ _ => some .tx
  | .decode _ => some .dec
  | .isHeader _ => none
  | .frameLen _ _ => none
  | .frameLenH _ => none
  | .reset => some .rx

/-- The instruction an input brings, where it brings one: a byte is its byte-class row, an ENCODE call its kind row, a batch
or a DECODE operand that is exactly one frame its pattern row. -/
def fetch : Input → Option Instr
  | .rxByte b => some (decodeByte b)
  | .rxRun bs => wholePattern bs
  | .encode kind id dc payload => some (Instr.ofFrame ⟨kind, id, dc, payload⟩)
  | .decode bs => wholePattern bs
  | .isHeader _ => none
  | .frameLen _ _ => none
  | .frameLenH _ => none
  | .reset => none

/-- The operation of an input (D2), performed as the spec names it, whatever instruction the input may bring. -/
def perform (c : Input) (s : State) : State :=
  match c with
  | .rxByte b => s.receive [b]
  | .rxRun bs => s.receive bs
  | .encode kind id dc payload => s.transmit kind id dc payload
  | .decode bs => s.decodeCall bs
  | .isHeader b => s.helperCall (.isHeader (Sys2Proof.isHeader b))
  | .frameLen kind dcm1 => s.helperCall (.frameLen (Sys2Proof.frameLen kind (dcm1.toNat + 1)))
  | .frameLenH h => s.helperCall (.frameLen (Sys2Proof.frameLenH h))
  | .reset => s.resetRx

/-- The head of `pending` is taken: it leaves the list, and its agent takes the step. -/
def State.take (s : State) (c : Input) (rest : List Input) : State :=
  { s with pending := rest, agent := c.agent.getD s.agent }

/-- The input that brings a word of spec/opcode_table.json: a kind row as the ENCODE call of its operands, a pattern row as
the batch of its bytes, a continuation byte as one byte. A word the decoder refuses is brought as a DECODE operand, whose
answer is the decoder's refusal. -/
def tableInput (nbits w : Nat) : Input :=
  match decodeTableWord nbits w with
  | some (.readResponse id dc payload) => .encode .readResponse id dc payload
  | some (.readRequest id dc payload) => .encode .readRequest id dc payload
  | some (.writeRequest id dc payload) => .encode .writeRequest id dc payload
  | some (.executeRequest id dc payload) => .encode .executeRequest id dc payload
  | some i => match i.view with
    | .byte => .rxByte ((encode i).headD 0)
    | _ => .rxRun (encode i)
  | none => .decode (tableBytes nbits w)

end Sys2Proof.Machine
end

