-- ==== Sys2Proof/Machine/Operands.lean ====
section
/-! DEFINITION. The one operand form of the frame rows and the one of the byte-class rows: what a step does with a frame's
operands, by the agent that takes it, and with a byte. -/

namespace Sys2Proof.Machine

/-- What the agent that takes the step does with a frame: TX encodes its operands (R84 to R87), DEC decodes its wire bytes
(R103, R106), RX receives its wire bytes (R130, R132). Operands that ENCODE rejects have no wire bytes: DEC then decodes, and
RX then receives, the empty list. -/
def State.frameStep (s : State) (o : FrameOperands) : State :=
  match s.agent with
  | .tx => s.transmit o.kind o.id o.dc o.payload
  | .dec => s.decodeCall o.wire
  | .rx => s.receive o.wire

/-- What a byte-class row does: RX consumes the byte (RXBYTE, R120). -/
def State.byteStep (s : State) (b : Byte) : State :=
  { s with rx := (rxByte s.rx b).1, emitted := s.emitted ++ (rxByte s.rx b).2.toList }

end Sys2Proof.Machine
end

