-- ==== Sys2Proof/Machine/ByteRows.lean ====
section
/-! DEFINITION. The meanings of the two byte-class rows: one RXBYTE step (spec/30_encoding.md R50, spec/42_rx_sync.md R120 to R129). -/

namespace Sys2Proof.Machine

/-- HEADER_BYTE: rule 1 of the receiver (R121). -/
def execHeaderByte (kind : Kind) (dcm1 : BitVec 3) (idHi : BitVec 2) (s : State) : Host.Outcome State Fault Refusal :=
  .next (s.byteStep (headerByteOf kind dcm1 idHi))

/-- CONTINUATION_BYTE: rules 2, 3 and 4 of the receiver, and completion (R122, R123, R124, R126). -/
def execContinuationByte (rest : BitVec 7) (s : State) : Host.Outcome State Fault Refusal :=
  .next (s.byteStep (continuationByteOf rest))

end Sys2Proof.Machine
end

