-- ==== Sys2Proof/Machine/ExecuteRequestRows.lean ====
section
/-! DEFINITION. The meanings of the pattern rows ExecuteRequest.dc1 to ExecuteRequest.dc8, whole frames on the wire
(spec/30_encoding.md R57, R59, R64; ENCODE R87, DECODE R106, reception R130, R132). -/

namespace Sys2Proof.Machine

/-- ExecuteRequest.dc1. -/
def execExecuteRequestDc1 (id p0 : Byte) (s : State) :
    Host.Outcome State Fault Refusal :=
  .next (s.frameStep ⟨.executeRequest, id, 1, [p0], 0⟩)

/-- ExecuteRequest.dc2. -/
def execExecuteRequestDc2 (id p0 p1 : Byte) (pad : BitVec 6) (s : State) :
    Host.Outcome State Fault Refusal :=
  .next (s.frameStep ⟨.executeRequest, id, 2, [p0, p1], pad.setWidth 8⟩)

/-- ExecuteRequest.dc3. -/
def execExecuteRequestDc3 (id p0 p1 p2 : Byte) (pad : BitVec 5) (s : State) :
    Host.Outcome State Fault Refusal :=
  .next (s.frameStep ⟨.executeRequest, id, 3, [p0, p1, p2], pad.setWidth 8⟩)

/-- ExecuteRequest.dc4. -/
def execExecuteRequestDc4 (id p0 p1 p2 p3 : Byte) (pad : BitVec 4) (s : State) :
    Host.Outcome State Fault Refusal :=
  .next (s.frameStep ⟨.executeRequest, id, 4, [p0, p1, p2, p3], pad.setWidth 8⟩)

/-- ExecuteRequest.dc5. -/
def execExecuteRequestDc5 (id p0 p1 p2 p3 p4 : Byte) (pad : BitVec 3) (s : State) :
    Host.Outcome State Fault Refusal :=
  .next (s.frameStep ⟨.executeRequest, id, 5, [p0, p1, p2, p3, p4], pad.setWidth 8⟩)

/-- ExecuteRequest.dc6. -/
def execExecuteRequestDc6 (id p0 p1 p2 p3 p4 p5 : Byte) (pad : BitVec 2) (s : State) :
    Host.Outcome State Fault Refusal :=
  .next (s.frameStep ⟨.executeRequest, id, 6, [p0, p1, p2, p3, p4, p5], pad.setWidth 8⟩)

/-- ExecuteRequest.dc7. -/
def execExecuteRequestDc7 (id p0 p1 p2 p3 p4 p5 p6 : Byte) (pad : BitVec 1) (s : State) :
    Host.Outcome State Fault Refusal :=
  .next (s.frameStep ⟨.executeRequest, id, 7, [p0, p1, p2, p3, p4, p5, p6], pad.setWidth 8⟩)

/-- ExecuteRequest.dc8. -/
def execExecuteRequestDc8 (id p0 p1 p2 p3 p4 p5 p6 p7 : Byte) (s : State) :
    Host.Outcome State Fault Refusal :=
  .next (s.frameStep ⟨.executeRequest, id, 8, [p0, p1, p2, p3, p4, p5, p6, p7], 0⟩)

end Sys2Proof.Machine
end

