-- ==== Sys2Proof/Machine/KindRows.lean ====
section
/-! DEFINITION. The meanings of the four kind rows (spec/40_encode.md R84 to R87, spec/41_decode.md R103, R106). Their operands are
those of ENCODE, any `dc` and any payload; they never fault: a ValidationError is the call's result. -/

namespace Sys2Proof.Machine

/-- ReadResponse (R85). -/
def execReadResponse (id : Byte) (dc : Nat) (payload : List Byte) (s : State) : Host.Outcome State Fault Refusal :=
  .next (s.frameStep ⟨.readResponse, id, dc, payload, 0⟩)

/-- ReadRequest (R84). -/
def execReadRequest (id : Byte) (dc : Nat) (payload : List Byte) (s : State) : Host.Outcome State Fault Refusal :=
  .next (s.frameStep ⟨.readRequest, id, dc, payload, 0⟩)

/-- WriteRequest (R86). -/
def execWriteRequest (id : Byte) (dc : Nat) (payload : List Byte) (s : State) : Host.Outcome State Fault Refusal :=
  .next (s.frameStep ⟨.writeRequest, id, dc, payload, 0⟩)

/-- ExecuteRequest (R87). -/
def execExecuteRequest (id : Byte) (dc : Nat) (payload : List Byte) (s : State) : Host.Outcome State Fault Refusal :=
  .next (s.frameStep ⟨.executeRequest, id, dc, payload, 0⟩)

end Sys2Proof.Machine
end

