-- ==== Sys2Proof/Machine/ReadRequestRows.lean ====
section
/-! DEFINITION. The meanings of the pattern rows ReadRequest.dc1 to ReadRequest.dc8, whole frames on the wire
(spec/30_encoding.md R57, R64; ENCODE R84, DECODE R103, reception R130, R132). -/

namespace Sys2Proof.Machine

/-- ReadRequest.dc1. -/
def execReadRequestDc1 (id : Byte) (z : BitVec 1) (s : State) :
    Host.Outcome State Fault Refusal :=
  .next (s.frameStep ⟨.readRequest, id, 1, [], z.setWidth 8⟩)

/-- ReadRequest.dc2. -/
def execReadRequestDc2 (id : Byte) (z : BitVec 1) (s : State) :
    Host.Outcome State Fault Refusal :=
  .next (s.frameStep ⟨.readRequest, id, 2, [], z.setWidth 8⟩)

/-- ReadRequest.dc3. -/
def execReadRequestDc3 (id : Byte) (z : BitVec 1) (s : State) :
    Host.Outcome State Fault Refusal :=
  .next (s.frameStep ⟨.readRequest, id, 3, [], z.setWidth 8⟩)

/-- ReadRequest.dc4. -/
def execReadRequestDc4 (id : Byte) (z : BitVec 1) (s : State) :
    Host.Outcome State Fault Refusal :=
  .next (s.frameStep ⟨.readRequest, id, 4, [], z.setWidth 8⟩)

/-- ReadRequest.dc5. -/
def execReadRequestDc5 (id : Byte) (z : BitVec 1) (s : State) :
    Host.Outcome State Fault Refusal :=
  .next (s.frameStep ⟨.readRequest, id, 5, [], z.setWidth 8⟩)

/-- ReadRequest.dc6. -/
def execReadRequestDc6 (id : Byte) (z : BitVec 1) (s : State) :
    Host.Outcome State Fault Refusal :=
  .next (s.frameStep ⟨.readRequest, id, 6, [], z.setWidth 8⟩)

/-- ReadRequest.dc7. -/
def execReadRequestDc7 (id : Byte) (z : BitVec 1) (s : State) :
    Host.Outcome State Fault Refusal :=
  .next (s.frameStep ⟨.readRequest, id, 7, [], z.setWidth 8⟩)

/-- ReadRequest.dc8. -/
def execReadRequestDc8 (id : Byte) (z : BitVec 1) (s : State) :
    Host.Outcome State Fault Refusal :=
  .next (s.frameStep ⟨.readRequest, id, 8, [], z.setWidth 8⟩)

end Sys2Proof.Machine
end

