-- ==== Sys2Proof/Machine/ReadResponseRows.lean ====
section
/-! DEFINITION. The meanings of the pattern rows ReadResponse.dc1 to ReadResponse.dc8, whole frames on the wire
(spec/30_encoding.md R57, R59, R64; ENCODE R85, DECODE R106, reception R130, R132). -/

namespace Sys2Proof.Machine

/-- ReadResponse.dc1. -/
def execReadResponseDc1 (id p0 : Byte) (s : State) :
    Host.Outcome State Fault Refusal :=
  .next (s.frameStep ⟨.readResponse, id, 1, [p0], 0⟩)

/-- ReadResponse.dc2. -/
def execReadResponseDc2 (id p0 p1 : Byte) (pad : BitVec 6) (s : State) :
    Host.Outcome State Fault Refusal :=
  .next (s.frameStep ⟨.readResponse, id, 2, [p0, p1], pad.setWidth 8⟩)

/-- ReadResponse.dc3. -/
def execReadResponseDc3 (id p0 p1 p2 : Byte) (pad : BitVec 5) (s : State) :
    Host.Outcome State Fault Refusal :=
  .next (s.frameStep ⟨.readResponse, id, 3, [p0, p1, p2], pad.setWidth 8⟩)

/-- ReadResponse.dc4. -/
def execReadResponseDc4 (id p0 p1 p2 p3 : Byte) (pad : BitVec 4) (s : State) :
    Host.Outcome State Fault Refusal :=
  .next (s.frameStep ⟨.readResponse, id, 4, [p0, p1, p2, p3], pad.setWidth 8⟩)

/-- ReadResponse.dc5. -/
def execReadResponseDc5 (id p0 p1 p2 p3 p4 : Byte) (pad : BitVec 3) (s : State) :
    Host.Outcome State Fault Refusal :=
  .next (s.frameStep ⟨.readResponse, id, 5, [p0, p1, p2, p3, p4], pad.setWidth 8⟩)

/-- ReadResponse.dc6. -/
def execReadResponseDc6 (id p0 p1 p2 p3 p4 p5 : Byte) (pad : BitVec 2) (s : State) :
    Host.Outcome State Fault Refusal :=
  .next (s.frameStep ⟨.readResponse, id, 6, [p0, p1, p2, p3, p4, p5], pad.setWidth 8⟩)

/-- ReadResponse.dc7. -/
def execReadResponseDc7 (id p0 p1 p2 p3 p4 p5 p6 : Byte) (pad : BitVec 1) (s : State) :
    Host.Outcome State Fault Refusal :=
  .next (s.frameStep ⟨.readResponse, id, 7, [p0, p1, p2, p3, p4, p5, p6], pad.setWidth 8⟩)

/-- ReadResponse.dc8. -/
def execReadResponseDc8 (id p0 p1 p2 p3 p4 p5 p6 p7 : Byte) (s : State) :
    Host.Outcome State Fault Refusal :=
  .next (s.frameStep ⟨.readResponse, id, 8, [p0, p1, p2, p3, p4, p5, p6, p7], 0⟩)

end Sys2Proof.Machine
end

