-- ==== Sys2Proof/Machine/WriteRequestRows.lean ====
section
/-! DEFINITION. The meanings of the pattern rows WriteRequest.dc1 to WriteRequest.dc8, whole frames on the wire
(spec/30_encoding.md R57, R59, R64; ENCODE R86, DECODE R106, reception R130, R132). -/

namespace Sys2Proof.Machine

/-- WriteRequest.dc1. -/
def execWriteRequestDc1 (id p0 : Byte) (s : State) :
    Host.Outcome State Fault Refusal :=
  .next (s.frameStep ⟨.writeRequest, id, 1, [p0], 0⟩)

/-- WriteRequest.dc2. -/
def execWriteRequestDc2 (id p0 p1 : Byte) (pad : BitVec 6) (s : State) :
    Host.Outcome State Fault Refusal :=
  .next (s.frameStep ⟨.writeRequest, id, 2, [p0, p1], pad.setWidth 8⟩)

/-- WriteRequest.dc3. -/
def execWriteRequestDc3 (id p0 p1 p2 : Byte) (pad : BitVec 5) (s : State) :
    Host.Outcome State Fault Refusal :=
  .next (s.frameStep ⟨.writeRequest, id, 3, [p0, p1, p2], pad.setWidth 8⟩)

/-- WriteRequest.dc4. -/
def execWriteRequestDc4 (id p0 p1 p2 p3 : Byte) (pad : BitVec 4) (s : State) :
    Host.Outcome State Fault Refusal :=
  .next (s.frameStep ⟨.writeRequest, id, 4, [p0, p1, p2, p3], pad.setWidth 8⟩)

/-- WriteRequest.dc5. -/
def execWriteRequestDc5 (id p0 p1 p2 p3 p4 : Byte) (pad : BitVec 3) (s : State) :
    Host.Outcome State Fault Refusal :=
  .next (s.frameStep ⟨.writeRequest, id, 5, [p0, p1, p2, p3, p4], pad.setWidth 8⟩)

/-- WriteRequest.dc6. -/
def execWriteRequestDc6 (id p0 p1 p2 p3 p4 p5 : Byte) (pad : BitVec 2) (s : State) :
    Host.Outcome State Fault Refusal :=
  .next (s.frameStep ⟨.writeRequest, id, 6, [p0, p1, p2, p3, p4, p5], pad.setWidth 8⟩)

/-- WriteRequest.dc7. -/
def execWriteRequestDc7 (id p0 p1 p2 p3 p4 p5 p6 : Byte) (pad : BitVec 1) (s : State) :
    Host.Outcome State Fault Refusal :=
  .next (s.frameStep ⟨.writeRequest, id, 7, [p0, p1, p2, p3, p4, p5, p6], pad.setWidth 8⟩)

/-- WriteRequest.dc8. -/
def execWriteRequestDc8 (id p0 p1 p2 p3 p4 p5 p6 p7 : Byte) (s : State) :
    Host.Outcome State Fault Refusal :=
  .next (s.frameStep ⟨.writeRequest, id, 8, [p0, p1, p2, p3, p4, p5, p6, p7], 0⟩)

end Sys2Proof.Machine
end

