-- ==== Sys2Proof/Machine/Dispatch.lean ====
section
/-! DEFINITION. The one dispatch: an arm for each constructor of `Instr`. -/

namespace Sys2Proof.Machine

def exec (i : Instr) (s : State) : Host.Outcome State Fault Refusal :=
  match i with
  | .readResponse id dc payload => Sys2Proof.Machine.execReadResponse id dc payload s
  | .readRequest id dc payload => Sys2Proof.Machine.execReadRequest id dc payload s
  | .writeRequest id dc payload => Sys2Proof.Machine.execWriteRequest id dc payload s
  | .executeRequest id dc payload => Sys2Proof.Machine.execExecuteRequest id dc payload s
  | .headerByte kind dcm1 idHi => Sys2Proof.Machine.execHeaderByte kind dcm1 idHi s
  | .continuationByte rest => Sys2Proof.Machine.execContinuationByte rest s
  | .readResponseDc1 id p0 => Sys2Proof.Machine.execReadResponseDc1 id p0 s
  | .readResponseDc2 id p0 p1 pad => Sys2Proof.Machine.execReadResponseDc2 id p0 p1 pad s
  | .readResponseDc3 id p0 p1 p2 pad => Sys2Proof.Machine.execReadResponseDc3 id p0 p1 p2 pad s
  | .readResponseDc4 id p0 p1 p2 p3 pad => Sys2Proof.Machine.execReadResponseDc4 id p0 p1 p2 p3 pad s
  | .readResponseDc5 id p0 p1 p2 p3 p4 pad => Sys2Proof.Machine.execReadResponseDc5 id p0 p1 p2 p3 p4 pad s
  | .readResponseDc6 id p0 p1 p2 p3 p4 p5 pad => Sys2Proof.Machine.execReadResponseDc6 id p0 p1 p2 p3 p4 p5 pad s
  | .readResponseDc7 id p0 p1 p2 p3 p4 p5 p6 pad => Sys2Proof.Machine.execReadResponseDc7 id p0 p1 p2 p3 p4 p5 p6 pad s
  | .readResponseDc8 id p0 p1 p2 p3 p4 p5 p6 p7 => Sys2Proof.Machine.execReadResponseDc8 id p0 p1 p2 p3 p4 p5 p6 p7 s
  | .readRequestDc1 id z => Sys2Proof.Machine.execReadRequestDc1 id z s
  | .readRequestDc2 id z => Sys2Proof.Machine.execReadRequestDc2 id z s
  | .readRequestDc3 id z => Sys2Proof.Machine.execReadRequestDc3 id z s
  | .readRequestDc4 id z => Sys2Proof.Machine.execReadRequestDc4 id z s
  | .readRequestDc5 id z => Sys2Proof.Machine.execReadRequestDc5 id z s
  | .readRequestDc6 id z => Sys2Proof.Machine.execReadRequestDc6 id z s
  | .readRequestDc7 id z => Sys2Proof.Machine.execReadRequestDc7 id z s
  | .readRequestDc8 id z => Sys2Proof.Machine.execReadRequestDc8 id z s
  | .writeRequestDc1 id p0 => Sys2Proof.Machine.execWriteRequestDc1 id p0 s
  | .writeRequestDc2 id p0 p1 pad => Sys2Proof.Machine.execWriteRequestDc2 id p0 p1 pad s
  | .writeRequestDc3 id p0 p1 p2 pad => Sys2Proof.Machine.execWriteRequestDc3 id p0 p1 p2 pad s
  | .writeRequestDc4 id p0 p1 p2 p3 pad => Sys2Proof.Machine.execWriteRequestDc4 id p0 p1 p2 p3 pad s
  | .writeRequestDc5 id p0 p1 p2 p3 p4 pad => Sys2Proof.Machine.execWriteRequestDc5 id p0 p1 p2 p3 p4 pad s
  | .writeRequestDc6 id p0 p1 p2 p3 p4 p5 pad => Sys2Proof.Machine.execWriteRequestDc6 id p0 p1 p2 p3 p4 p5 pad s
  | .writeRequestDc7 id p0 p1 p2 p3 p4 p5 p6 pad => Sys2Proof.Machine.execWriteRequestDc7 id p0 p1 p2 p3 p4 p5 p6 pad s
  | .writeRequestDc8 id p0 p1 p2 p3 p4 p5 p6 p7 => Sys2Proof.Machine.execWriteRequestDc8 id p0 p1 p2 p3 p4 p5 p6 p7 s
  | .executeRequestDc1 id p0 => Sys2Proof.Machine.execExecuteRequestDc1 id p0 s
  | .executeRequestDc2 id p0 p1 pad => Sys2Proof.Machine.execExecuteRequestDc2 id p0 p1 pad s
  | .executeRequestDc3 id p0 p1 p2 pad => Sys2Proof.Machine.execExecuteRequestDc3 id p0 p1 p2 pad s
  | .executeRequestDc4 id p0 p1 p2 p3 pad => Sys2Proof.Machine.execExecuteRequestDc4 id p0 p1 p2 p3 pad s
  | .executeRequestDc5 id p0 p1 p2 p3 p4 pad => Sys2Proof.Machine.execExecuteRequestDc5 id p0 p1 p2 p3 p4 pad s
  | .executeRequestDc6 id p0 p1 p2 p3 p4 p5 pad => Sys2Proof.Machine.execExecuteRequestDc6 id p0 p1 p2 p3 p4 p5 pad s
  | .executeRequestDc7 id p0 p1 p2 p3 p4 p5 p6 pad => Sys2Proof.Machine.execExecuteRequestDc7 id p0 p1 p2 p3 p4 p5 p6 pad s
  | .executeRequestDc8 id p0 p1 p2 p3 p4 p5 p6 p7 => Sys2Proof.Machine.execExecuteRequestDc8 id p0 p1 p2 p3 p4 p5 p6 p7 s

end Sys2Proof.Machine
end

