-- ==== Sys2Proof/Machine/Step.lean ====
section
/-! DEFINITION. One step of the machine: the block takes the next input presented to it. -/

namespace Sys2Proof.Machine

/-- One step. With nothing presented the block waits (spec/42_rx_sync.md R134, R200 of spec/70_reset_and_hazards.md).
Otherwise the head of `pending` is taken: where it brings an instruction, that instruction is executed by the input's agent;
where it brings none, the operation it names is performed. -/
def step (s : State) : Host.Outcome State Fault Refusal :=
  match s.pending with
  | [] => .next s
  | c :: rest =>
    match fetch c with
    | some i => exec i (s.take c rest)
    | none => .next (perform c (s.take c rest))

/-- `s` with the instruction of a word of spec/opcode_table.json presented as the next input (log 3, log 7). -/
def State.withFetchWord (s : State) (nbits w : Nat) : State :=
  { s with pending := tableInput nbits w :: s.pending }

end Sys2Proof.Machine
end

