-- ==== Sys2Proof/Machine/Flags.lean ====
section
/-! DEFINITION. The block has no flags and no condition codes (spec/10_state.md R15). What it has instead of a status: the
numbers of the error classes and reasons, which a caller may read off a result (spec/60_exceptions.md R170, D25), and the
labels of the receiver's drops, for traces only (R173, D26). Neither is state. -/

namespace Sys2Proof.Machine

/-- The class code of ValidationError (R170). -/
def validationClass : Nat := 1

/-- The class code of MalformedError (R170). -/
def malformedClass : Nat := 2

/-- The reason code of a ValidationError (R170). -/
def validationReason : ValidationError → Nat
  | .dcRange _ => 1
  | .payloadLength _ _ => 2

/-- The reason code of a MalformedError (R170). -/
def malformedReason : MalformedError → Nat
  | .short _ => 1
  | .header _ => 2
  | .marker _ => 3
  | .length _ _ => 4

/-- The drop labels of R173. -/
inductive Drop where
  | discardUnsync
  | abortByHeader
  | overflowDrop
  | swallowed
deriving DecidableEq, Repr

/-- The frame that storing `b` completes is one DECODE rejects (R128). -/
def RxState.storeSwallows (r : RxState) (b : Byte) : Bool :=
  let stored := (r.contents r.cnt.toNat) ++ [b]
  decide (stored.length = r.expectedLen) && decide (frameOf stored = none)

/-- The drop of one RXBYTE step, if it is one (R173). -/
def rxDrop (r : RxState) (b : Byte) : Option Drop :=
  if isHeader b then (if r.cnt = 0 then none else some .abortByHeader)
  else if r.cnt = 0 then some .discardUnsync
  else if Config.ovfGuard ≤ r.cnt.toNat then some .overflowDrop
  else if r.storeSwallows b then some .swallowed
  else none

end Sys2Proof.Machine
end

