-- ==== Sys2Proof/Safety.lean ====
section
/-! DEFINITION. The terms claims are stated in: the receiver's invariants (spec/10_state.md R18), the shape of wire bytes
(spec/40_encode.md R90), the machine's invariant, and what two receivers have in common when they differ only in entries no
rule reads (R17). -/

namespace Sys2Proof

/-- The wire shape of every encoded frame (R50, R90): a header byte, then continuation bytes, as many in all as the header
predicts. -/
abbrev WireShaped (w : List Byte) : Prop :=
  isHeader (w.headD 0) = true ∧ (∀ b ∈ w.tail, isHeader b = false) ∧ w.length = frameLenH (w.headD 0)

/-- The frame of a frame row's operands: a ReadRequest carries no payload (R9). -/
def FrameOperands.frame (o : FrameOperands) : Frame :=
  ⟨o.kind, o.id, o.dc, if o.kind = .readRequest then [] else o.payload⟩

/-- Operands ENCODE accepts (R81, R82), with nothing but ignored bits in `ignored` (R60, R61). -/
abbrev FrameOperands.valid (o : FrameOperands) : Prop :=
  1 ≤ o.dc ∧ o.dc ≤ 8 ∧ (o.kind ≠ .readRequest → o.payload.length = o.dc) ∧
    o.ignored.toNat < 2 ^ ignoredBits o.kind o.dc

namespace Machine

/-- INV1 of R18: between steps `cnt` is at most 10. -/
abbrev RxState.CountInRange (r : RxState) : Prop := r.cnt.toNat ≤ 10

/-- INV2 of R18: while collecting, entry 0 is a header byte and the other collected entries are continuation bytes. -/
abbrev RxState.MarkedFirstOnly (r : RxState) : Prop :=
  1 ≤ r.cnt.toNat → isHeader r.buf[0] = true ∧
    ∀ i : Fin 11, 1 ≤ i.val → i.val < r.cnt.toNat → isHeader r.buf[i.val] = false

/-- INV3 of R18: while collecting, `cnt` is below the predicted length. -/
abbrev RxState.BelowExpected (r : RxState) : Prop := 1 ≤ r.cnt.toNat → r.cnt.toNat < r.expectedLen

/-- INV1 to INV3 of R18. -/
abbrev RxState.Inv (r : RxState) : Prop := r.CountInRange ∧ r.MarkedFirstOnly ∧ r.BelowExpected

/-- INV4 of R18: the collected entries are the last `cnt` bytes of `consumed`, in order. -/
abbrev RxState.Tracks (r : RxState) (consumed : List Byte) : Prop :=
  r.cnt.toNat ≤ consumed.length ∧ r.contents r.cnt.toNat = consumed.drop (consumed.length - r.cnt.toNat)

/-- Two receivers that differ at most in entries at indices `cnt` and above (R17). -/
abbrev RxState.SameLive (r q : RxState) : Prop := r.cnt = q.cnt ∧ ∀ i < r.cnt.toNat, r.entry i = q.entry i

/-- `q`'s buffer is `r`'s with `b` written at index `n`, and nothing else changed (R37: at most one buffer write a step). -/
abbrev RxState.WrittenAt (r q : RxState) (n : Nat) (b : Byte) : Prop :=
  ∀ i, q.entry i = if i = n then some b else r.entry i

/-- The invariant of the machine: the receiver's invariants (R18), every emitted or decoded frame well formed (R9, R136), and
every list of bytes ENCODE returned of the wire shape (R90). -/
abbrev State.Inv (s : State) : Prop :=
  s.rx.Inv ∧ (∀ f ∈ s.emitted, f.wf = true) ∧
    (∀ r ∈ s.encoded, match r with | .ok w => WireShaped w | .err _ => True) ∧
    (∀ r ∈ s.decoded, match r with | .ok f => f.wf = true | .err _ => True)

/-- The receiver takes the input (R120, R130, R190). -/
def Input.toReceiver : Input → Bool
  | .rxByte _ => true
  | .rxRun _ => true
  | .encode _ _ _ _ => false
  | .decode _ => false
  | .isHeader _ => false
  | .frameLen _ _ => false
  | .frameLenH _ => false
  | .reset => true

end Machine

end Sys2Proof
end

