-- ==== Sys2Proof/Certificates/Slice0/Obligations.lean ====
section
/-! DEFINITION. The statements for the provers. Rules R<n>, test vectors and sections are those of spec/. -/

open Sys2Proof Sys2Proof.Machine

/-! ## Reading and writing the wire -/

/-- O1. Decoding the encoding of a well-formed instruction gives it back, every operand at every value, whatever bytes
follow (R111 for the kind rows, R64 for the pattern rows, R50 for the byte classes). -/
def Obligations.DecodeOfEncodeIsIdentity : Prop :=
  ∀ (i : Instr) (rest : List Byte), i.wf = true → decodeAs i.view (encode i ++ rest) = .ok (i, rest)

/-- O2. Encoding what was decoded gives the bytes back: no bit of a pattern row or of a byte-class row is dropped, pad bits
and the unused bit of a ReadRequest included. -/
def Obligations.EncodeOfDecodeKeepsEveryBit : Prop :=
  ∀ (v : View) (bs rest : List Byte) (i : Instr), v ≠ .kind → decodeAs v bs = .ok (i, rest) → encode i ++ rest = bs

/-- O3. A few words of the spec, written out bit by bit from its encodings, decode to the instructions they stand for
(source examples S1 and S3 of spec/95_test_vectors.md, vectors K10 and A5, and the byte classes of R50). -/
def Obligations.SpecWordsDecode : Prop :=
  decodeAs .pattern [0b11100011, 0b01011010, 0b01000011] = .ok (.executeRequestDc1 237 0x43, []) ∧
  decodeAs .kind [0b11011100, 0b01001010, 0b00000001, 0b00010001, 0b01010001, 0b00101100, 0b01111000, 0b01001101,
    0b00101111, 0b00011011, 0b01101111] =
      .ok (.writeRequest 37 8 [0x01, 0x23, 0x45, 0x67, 0x89, 0xAB, 0xCD, 0xEF], []) ∧
  decodeAs .pattern [0b11100000, 0b00000001, 0b00000000] = .ok (.executeRequestDc1 0 0x80, []) ∧
  decodeAs .pattern [0b10101101, 0b00010011] = .ok (.readRequestDc4 73 1, []) ∧
  decodeAs .byte [0b10110001] = .ok (.headerByte .readRequest 0b100 0b01, []) ∧
  decodeAs .byte [0b00010010] = .ok (.continuationByte 0b0010010, [])

/-- O4. The wire bytes of a frame row with valid operands: `w[0]` alone has bit 7 set, there are FRAMELEN of them, and the
16-bit header `w[0] ‖ w[1]` under the mask 0xE080 is `0x8000` plus the kind code in bits 14:13 (R64, R90). -/
def Obligations.FrameRowMatchesTable : Prop :=
  ∀ (i : Instr) (o : FrameOperands), i.frameOperands = some o → o.valid →
    WireShaped (encode i) ∧ (encode i).length = frameLen o.kind o.dc ∧
      (((encode i).getD 0 0).setWidth 16 <<< 8 ||| ((encode i).getD 1 0).setWidth 16) &&& 0xE080#16 =
        0x8000#16 ||| (o.kind.code.setWidth 16 <<< 13) ∧
      (encode i).getD 0 0 &&& 0xFC#8 = BitVec.ofNat 8 (0x80 + 32 * o.kind.code.toNat + 4 * (o.dc - 1))

/-! ## TX: the encoder -/

/-- O5. ENCODE of a data count outside 1 to 8 gives ValidationError(DC_RANGE) and no bytes, for every kind (R81). The four
kind rows readResponse, readRequest, writeRequest, executeRequest. -/
def Obligations.EncodeRejectsDataCount : Prop :=
  ∀ (kind : Kind) (id : Byte) (dc : Nat) (payload : List Byte) (s : State), s.agent = .tx → dc < 1 ∨ 8 < dc →
    exec (Instr.ofFrame ⟨kind, id, dc, payload⟩) s = .next { s with encoded := s.encoded ++ [.err (.dcRange dc)] }

/-- O6. With the data count in range, a payload of another length gives ValidationError(PAYLOAD_LENGTH) and no bytes, for
every kind but ReadRequest, whose payload is not examined: its two bytes are those of no payload (R82, R84). -/
def Obligations.EncodeChecksPayloadLength : Prop :=
  ∀ (kind : Kind) (id : Byte) (dc : Nat) (payload : List Byte) (s : State), s.agent = .tx → 1 ≤ dc → dc ≤ 8 →
    (kind ≠ .readRequest → payload.length ≠ dc →
      exec (Instr.ofFrame ⟨kind, id, dc, payload⟩) s =
        .next { s with encoded := s.encoded ++ [.err (.payloadLength payload.length dc)] }) ∧
    (kind = .readRequest →
      exec (Instr.ofFrame ⟨kind, id, dc, payload⟩) s =
        .next { s with encoded := s.encoded ++
          [.ok [BitVec.ofNat 8 (128 + 32 + 4 * (dc - 1) + id.toNat / 64), BitVec.ofNat 8 (2 * (id.toNat % 64))]] })

/-- O7. With valid operands TX answers the frame's bytes and changes nothing else: FRAMELEN bytes; the header fields of R83;
payload bit `j` at bit `6 - (j+6) mod 7` of byte `1 + (j+6) div 7` (R58); every later bit, and bit 0 of a ReadRequest's second
byte, 0 (R60, R61); bit 7 clear after the first byte (R90). All four kind rows and all 32 pattern rows. That TX, given a pattern
row, encodes its operands, the row's own ignored bits having no say, is THE MODEL'S CHOICE (log 11). -/
def Obligations.EncodePlacesEveryBit : Prop :=
  ∀ (i : Instr) (o : FrameOperands) (s : State), i.frameOperands = some o → o.valid → s.agent = .tx →
    ∃ w : List Byte, exec i s = .next { s with encoded := s.encoded ++ [.ok w] } ∧
      w.length = frameLen o.kind o.dc ∧
      (w.getD 0 0).toNat = 128 + 32 * o.kind.code.toNat + 4 * (o.dc - 1) + o.id.toNat / 64 ∧
      (w.getD 1 0).toNat / 2 = o.id.toNat % 64 ∧
      (∀ k, 1 ≤ k → isHeader (w.getD k 0) = false) ∧
      (o.kind = .readRequest → (w.getD 1 0).getLsbD 0 = false) ∧
      (o.kind ≠ .readRequest → ∀ j, 1 + (j + 6) / 7 < w.length →
        (w.getD (1 + (j + 6) / 7) 0).getLsbD (6 - (j + 6) % 7) =
          if j < 8 * o.dc then (o.payload.getD (j / 8) 0).getLsbD (7 - j % 8) else false)

/-- O8. The laws of every successful ENCODE (R90): only `w[0]` has bit 7 set; there are FRAMELEN bytes, 2 to 11, and exactly 2
for a ReadRequest; pad bits, and bit 0 of a ReadRequest's second byte, are 0; and operands that encode alike are alike, the
payload of a ReadRequest apart. -/
def Obligations.EncodeLaws : Prop :=
  ∀ (kind : Kind) (id : Byte) (dc : Nat) (payload w : List Byte), encodeFrame kind id dc payload = .ok w →
    isHeader (w.getD 0 0) = true ∧ (∀ k, 1 ≤ k → isHeader (w.getD k 0) = false) ∧
    w.length = frameLen kind dc ∧ 2 ≤ w.length ∧ w.length ≤ 11 ∧ (kind = .readRequest → w.length = 2) ∧
    (∀ j, j < ignoredBits kind dc → (w.getD (w.length - 1) 0).getLsbD j = false) ∧
    ∀ (kind' : Kind) (id' : Byte) (dc' : Nat) (payload' : List Byte), encodeFrame kind' id' dc' payload' = .ok w →
      kind' = kind ∧ id' = id ∧ dc' = dc ∧ (kind ≠ .readRequest → payload' = payload)

/-! ## DEC: the decoder -/

/-- O9. Presented with a DECODE call on any byte list, DEC answers the row of R108 that applies, first match wins, and
changes nothing else (the call leaves `pending`; which agent moved is the model's bookkeeping, log 5, and not stated). -/
def Obligations.DecodeCallAnswersFirstMatch : Prop :=
  ∀ (s : State) (bs : List Byte) (later : List Input), s.pending = .decode bs :: later →
    ∃ t : State, step s = .next t ∧ t = { s with pending := later, agent := t.agent, decoded := s.decoded ++
      [if bs.length < 2 then .err (.short bs.length)
       else if isHeader (bs.getD 0 0) = false then .err (.header (bs.getD 0 0))
       else if isHeader (bs.getD 1 0) = true then .err (.marker 1)
       else if kindOf (bs.getD 0 0) = .readRequest then
         .ok ⟨.readRequest, idOf (bs.getD 0 0) (bs.getD 1 0), dcOf (bs.getD 0 0), []⟩
       else if bs.length ≠ lenOf (dcOf (bs.getD 0 0)) then .err (.length bs.length (lenOf (dcOf (bs.getD 0 0))))
       else match (List.range bs.length).find? (fun k => decide (2 ≤ k) && isHeader (bs.getD k 0)) with
         | some k => .err (.marker k)
         | none => .ok ⟨kindOf (bs.getD 0 0), idOf (bs.getD 0 0) (bs.getD 1 0), dcOf (bs.getD 0 0),
             unpack (dcOf (bs.getD 0 0)) bs⟩] }

/-- O10. UNPACK puts every payload bit back where R58 says it came from: bit `j` of a decoded payload is bit
`6 - (j+6) mod 7` of byte `1 + (j+6) div 7`. -/
def Obligations.DecodedPayloadBits : Prop :=
  ∀ (bs : List Byte) (f : Frame), decodeFrame bs = .ok f → f.kind ≠ .readRequest →
    f.payload.length = f.dc ∧ ∀ j < 8 * f.dc,
      (f.payload.getD (j / 8) 0).getLsbD (7 - j % 8) = (bs.getD (1 + (j + 6) / 7) 0).getLsbD (6 - (j + 6) % 7)

/-- O11. DECODE inverts ENCODE (R111): for every kind, id, data count in 1 to 8 and payload of that length, ENCODE succeeds and
DECODE gives the operands back, with an empty payload for a ReadRequest. -/
def Obligations.DecodeInvertsEncode : Prop :=
  ∀ (kind : Kind) (id : Byte) (dc : Nat) (payload : List Byte), 1 ≤ dc → dc ≤ 8 → payload.length = dc →
    ∃ w : List Byte, encodeFrame kind id dc payload = .ok w ∧
      decodeFrame w = .ok ⟨kind, id, dc, if kind = .readRequest then [] else payload⟩

/-- O12. DEC answers a frame row's own frame, whatever its ignored bits: DECODE inverts ENCODE (R111), pad bits and a
ReadRequest's unused bit take no part (R60, R61, R107). All four kind rows and all 32 pattern rows. That a frame row, moved by
DEC, is the DECODE of its bytes is THE MODEL'S CHOICE (log 11). -/
def Obligations.DecodeReturnsTheFrame : Prop :=
  ∀ (i : Instr) (o : FrameOperands) (s : State), i.frameOperands = some o → o.valid → s.agent = .dec →
    exec i s = .next { s with decoded := s.decoded ++ [.ok o.frame] }

/-- O13. ENCODE inverts DECODE up to the ignored bits (R112): re-encoding a decoded frame gives its bytes, cut to FRAMELEN,
with the ignored bits of the last one cleared; bytes that ENCODE answered come back unchanged. -/
def Obligations.ReencodeClearsIgnoredBits : Prop :=
  ∀ (bs : List Byte) (f : Frame), decodeFrame bs = .ok f →
    encodeFrame f.kind f.id f.dc f.payload =
      .ok ((bs.take (frameLen f.kind f.dc)).modify (frameLen f.kind f.dc - 1)
        (fun b => (b >>> ignoredBits f.kind f.dc) <<< ignoredBits f.kind f.dc)) ∧
    ∀ (kind : Kind) (id : Byte) (dc : Nat) (payload : List Byte), encodeFrame kind id dc payload = .ok bs →
      encodeFrame f.kind f.id f.dc f.payload = .ok bs

/-! ## The helper functions -/

/-- O14. ISHEADER, FRAMELEN and FRAMELEN_H, as calls: true exactly from 0x80 on (R109); 2 for a ReadRequest, else the size
formula of the data count, for FRAMELEN_H read from the header byte (R110); nothing else changes. -/
def Obligations.HelperCallsAnswer : Prop :=
  ∀ (s : State) (b : Byte) (kind : Kind) (dcm1 : BitVec 3) (later : List Input),
    (s.pending = .isHeader b :: later →
      step s = .next { s with pending := later, helpers := s.helpers ++ [.isHeader (decide (128 ≤ b.toNat))] }) ∧
    (s.pending = .frameLen kind dcm1 :: later →
      step s = .next { s with pending := later, helpers := s.helpers ++
        [.frameLen (if kind = .readRequest then 2 else (8 * (dcm1.toNat + 1) + 5) / 7 + 2)] }) ∧
    (s.pending = .frameLenH b :: later →
      step s = .next { s with pending := later, helpers := s.helpers ++
        [.frameLen (if b.toNat / 32 % 4 = 1 then 2 else (8 * (b.toNat / 4 % 8 + 1) + 5) / 7 + 2)] })

/-! ## RX: one byte -/

/-- O15. Rule 1 (R121): a header byte, whatever `cnt` is, becomes entry 0 and sets `cnt` to 1; the other entries keep their
content, nothing is emitted, nothing else changes. headerByte. -/
def Obligations.HeaderByteRestartsCollection : Prop :=
  ∀ (kind : Kind) (dcm1 : BitVec 3) (idHi : BitVec 2) (s : State), ∃ t : State,
    exec (.headerByte kind dcm1 idHi) s = .next t ∧ t = { s with rx := t.rx } ∧ t.rx.cnt = 1 ∧
      s.rx.WrittenAt t.rx 0
        (BitVec.ofNat 8 (128 + 32 * kind.code.toNat + 4 * dcm1.toNat + idHi.toNat))

/-- O16. Rule 2 (R122): with `cnt = 0` a continuation byte is consumed without any effect. continuationByte. -/
def Obligations.UnsynchronizedByteDiscarded : Prop :=
  ∀ (rest : BitVec 7) (s : State), s.rx.cnt = 0 → exec (.continuationByte rest) s = .next s

/-- O17. Rule 3 (R123): with `cnt` at 11 or more a continuation byte sets `cnt` to 0 and is lost; the buffer is unchanged,
nothing is emitted. continuationByte. -/
def Obligations.OverflowDropsPartialFrame : Prop :=
  ∀ (rest : BitVec 7) (s : State), 11 ≤ s.rx.cnt.toNat →
    exec (.continuationByte rest) s = .next { s with rx := { s.rx with cnt := 0 } }

/-- O18. Rule 4 without completion (R124, R126): a continuation byte is stored at `buf[cnt]` and counted; the other entries
keep their content, nothing is emitted, nothing else changes. continuationByte. -/
def Obligations.ContinuationByteStored : Prop :=
  ∀ (rest : BitVec 7) (s : State), 1 ≤ s.rx.cnt.toNat → s.rx.cnt.toNat ≤ 10 →
    s.rx.cnt.toNat + 1 ≠ s.rx.expectedLen → ∃ t : State,
      exec (.continuationByte rest) s = .next t ∧ t = { s with rx := t.rx } ∧
        t.rx.cnt.toNat = s.rx.cnt.toNat + 1 ∧ s.rx.WrittenAt t.rx s.rx.cnt.toNat (rest.setWidth 8)

/-- O19. Rule 4 with completion (R126, R127, R131): under the receiver's invariants, the byte that makes the count reach the
predicted length is stored, `cnt` becomes 0, and exactly one frame is emitted, the DECODE of the collected bytes.
continuationByte. -/
def Obligations.LastByteEmitsTheFrame : Prop :=
  ∀ (rest : BitVec 7) (s : State), s.rx.Inv → 1 ≤ s.rx.cnt.toNat → s.rx.cnt.toNat + 1 = s.rx.expectedLen →
    ∃ (t : State) (f : Frame),
      exec (.continuationByte rest) s = .next t ∧
        decodeFrame (s.rx.contents s.rx.cnt.toNat ++ [rest.setWidth 8]) = .ok f ∧
        t = { s with rx := t.rx, emitted := s.emitted ++ [f] } ∧
        t.rx.cnt = 0 ∧ s.rx.WrittenAt t.rx s.rx.cnt.toNat (rest.setWidth 8)

/-- O20. A completed frame that DECODE rejects is swallowed (R128): `cnt` becomes 0, nothing is emitted. Possible only in
states no run reaches. continuationByte. -/
def Obligations.RejectedFrameSwallowed : Prop :=
  ∀ (rest : BitVec 7) (s : State) (e : MalformedError), 1 ≤ s.rx.cnt.toNat → s.rx.cnt.toNat ≤ 10 →
    s.rx.cnt.toNat + 1 = s.rx.expectedLen →
    decodeFrame (s.rx.contents s.rx.cnt.toNat ++ [rest.setWidth 8]) = .err e → ∃ t : State,
      exec (.continuationByte rest) s = .next t ∧ t = { s with rx := t.rx } ∧ t.rx.cnt = 0 ∧
        s.rx.WrittenAt t.rx s.rx.cnt.toNat (rest.setWidth 8)

/-- O21. The next-value table of `cnt` (R21), over all states and all bytes. -/
def Obligations.CounterNextValue : Prop :=
  ∀ (r : RxState) (b : Byte), (rxByte r b).1.cnt.toNat =
    if isHeader b = true then 1
    else if r.cnt.toNat = 0 then 0
    else if 11 ≤ r.cnt.toNat then 0
    else if r.cnt.toNat + 1 = r.expectedLen then 0
    else r.cnt.toNat + 1

/-- O22. What each drop of R173 loses and leaves: none emits; DISCARD_UNSYNC leaves the receiver as it was, ABORT_BY_HEADER
leaves `cnt = 1` and the new header in entry 0, OVERFLOW_DROP and SWALLOWED leave `cnt = 0`. -/
def Obligations.DropsLeaveTheStatedState : Prop :=
  ∀ (r : RxState) (b : Byte) (d : Drop), rxDrop r b = some d → (rxByte r b).2 = none ∧
    (d = .discardUnsync → isHeader b = false ∧ r.cnt = 0 ∧ (rxByte r b).1 = r) ∧
    (d = .abortByHeader → isHeader b = true ∧ 1 ≤ r.cnt.toNat ∧ (rxByte r b).1.cnt = 1 ∧ r.WrittenAt (rxByte r b).1 0 b) ∧
    (d = .overflowDrop → isHeader b = false ∧ 11 ≤ r.cnt.toNat ∧ (rxByte r b).1 = { r with cnt := 0 }) ∧
    (d = .swallowed → isHeader b = false ∧ (rxByte r b).1.cnt = 0)

/-- O23. In states that meet the receiver's invariants the overflow rule never fires (R133) and no frame is swallowed
(R131), whatever byte arrives. -/
def Obligations.OverflowAndSwallowNeverHappen : Prop :=
  ∀ (r : RxState) (b : Byte), r.Inv → rxDrop r b ≠ some .overflowDrop ∧ rxDrop r b ≠ some .swallowed

/-! ## RX: invariants of the stream -/

/-- O24. INV4 of R18: if the collected entries are the last `cnt` bytes of the bytes consumed so far, they still are after
one more byte. -/
def Obligations.CollectedBytesAreTheLastConsumed : Prop :=
  ∀ (r : RxState) (b : Byte) (consumed : List Byte), r.Tracks consumed → (rxByte r b).1.Tracks (consumed ++ [b])

/-- O25. Every emitted frame is well formed and is the DECODE of the last FRAMELEN bytes consumed, one header byte followed
by continuation bytes (R136). -/
def Obligations.EmittedFrameIsTheLastBytes : Prop :=
  ∀ (r : RxState) (b : Byte) (consumed : List Byte) (f : Frame), r.Inv → r.Tracks consumed → (rxByte r b).2 = some f →
    f.wf = true ∧ ∃ before w : List Byte, consumed ++ [b] = before ++ w ∧ WireShaped w ∧
      w.length = frameLen f.kind f.dc ∧ decodeFrame w = .ok f

/-- O26. RXRUN is RXBYTE over a list, the frames in order, and compositional (R130): splitting a stream into passes changes
neither the receiver reached nor the frames emitted. -/
def Obligations.RxRunComposes : Prop :=
  ∀ (r : RxState) (xs ys : List Byte), rxRun r [] = (r, []) ∧
    (∀ b : Byte, rxRun r (b :: xs) = ((rxRun (rxByte r b).1 xs).1,
      (match (rxByte r b).2 with | some f => [f] | none => []) ++ (rxRun (rxByte r b).1 xs).2)) ∧
    rxRun r (xs ++ ys) = ((rxRun (rxRun r xs).1 ys).1, (rxRun r xs).2 ++ (rxRun (rxRun r xs).1 ys).2)

/-- O27. Entries at index `cnt` and above affect no output (R17): two receivers that agree on `cnt` and on the entries below
it emit the same frames on every stream and agree again afterwards. -/
def Obligations.StaleEntriesAreUnobservable : Prop :=
  ∀ (r q : RxState) (bs : List Byte), r.SameLive q →
    (rxRun r bs).2 = (rxRun q bs).2 ∧ (rxRun r bs).1.SameLive (rxRun q bs).1

/-- O28. Over a stream of `m` bytes from AwaitHeader at most `m div 2` frames are emitted (R137). -/
def Obligations.FramesAtMostHalfTheBytes : Prop :=
  ∀ (r : RxState) (bs : List Byte), r.cnt = 0 → (rxRun r bs).2.length ≤ bs.length / 2

/-! ## RX: whole frames -/

/-- O29. Resynchronization (R132), with the frame of the instruction: from ANY receiver state RX takes a frame row's wire
bytes and emits exactly that row's frame, ends in AwaitHeader with the bytes in the first entries, and changes no other entry
and nothing else of the machine. All four kind rows and all 32 pattern rows. That a frame row, moved by RX, is the reception of
its bytes is THE MODEL'S CHOICE (log 11). -/
def Obligations.ReceptionEmitsTheFrame : Prop :=
  ∀ (i : Instr) (o : FrameOperands) (s : State), i.frameOperands = some o → o.valid → s.agent = .rx → ∃ t : State,
    exec i s = .next t ∧ t = { s with rx := t.rx, emitted := s.emitted ++ [o.frame] } ∧ t.rx.cnt = 0 ∧
      ∀ k, t.rx.entry k = if k < (encode i).length then (encode i)[k]? else s.rx.entry k

/-- O30. Resynchronization as R132 has it, of ENCODE's bytes: from ANY receiver state they give exactly their frame and end in
AwaitHeader; and after any bytes that from reset complete no frame, they give exactly their frame. -/
def Obligations.EncodedFrameResynchronizes : Prop :=
  ∀ (kind : Kind) (id : Byte) (dc : Nat) (payload w : List Byte), encodeFrame kind id dc payload = .ok w →
    (∀ r : RxState, (rxRun r w).1.cnt = 0 ∧
      (rxRun r w).2 = [⟨kind, id, dc, if kind = .readRequest then [] else payload⟩]) ∧
    ∀ before : List Byte, (rxRun RxState.reset before).2 = [] →
      (rxRun RxState.reset (before ++ w)).2 = [⟨kind, id, dc, if kind = .readRequest then [] else payload⟩]

/-- O31. A header byte is the synchronizing event (R40): from there on no receiver state that came before has any influence on
the frames emitted. -/
def Obligations.HeaderByteSynchronizes : Prop :=
  ∀ (r q : RxState) (b : Byte) (bs : List Byte), isHeader b = true → (rxRun r (b :: bs)).2 = (rxRun q (b :: bs)).2

/-- O32. There is no integrity check (R195, R135): from any receiver state any bytes of the wire shape are received as a frame,
whatever their origin. -/
def Obligations.ShapedBytesAreReceived : Prop :=
  ∀ (r : RxState) (w : List Byte), WireShaped w → ∃ f : Frame, decodeFrame w = .ok f ∧ f.kind = kindOf (w.getD 0 0) ∧
    (rxRun r w).2 = [f] ∧ (rxRun r w).1.cnt = 0

/-- O33. A frame cut short by the next frame's header is abandoned without a trace, from any receiver state (R121, R62):
only the second frame is emitted. -/
def Obligations.TruncatedFrameAbandoned : Prop :=
  ∀ (r : RxState) (o p : FrameOperands) (n : Nat), o.valid → p.valid → 1 ≤ n → n < o.wire.length →
    (rxRun r (o.wire.take n ++ p.wire)).2 = [p.frame] ∧ (rxRun r (o.wire.take n ++ p.wire)).1.cnt = 0

/-- O34. Frames may follow each other back to back, and surplus continuation bytes after each are discarded (R200, R62): a
stream of frames, each followed by any continuation bytes, emits those frames in order. -/
def Obligations.BackToBackFramesInOrder : Prop :=
  ∀ (r : RxState) (stream : List (FrameOperands × List Byte)),
    (∀ x ∈ stream, x.1.valid ∧ ∀ b ∈ x.2, isHeader b = false) → stream ≠ [] →
    (rxRun r (stream.flatMap (fun x => x.1.wire ++ x.2))).2 = stream.map (fun x => x.1.frame) ∧
      (rxRun r (stream.flatMap (fun x => x.1.wire ++ x.2))).1.cnt = 0

/-- O35. Operands that ENCODE rejects have no wire bytes: RX receives nothing and DEC is asked to decode the empty list. THE
MODEL'S CHOICE for an agent asked to handle a kind row that is no frame (log 10); the answer for the empty list is R101's. -/
def Obligations.UnencodableFrameHasNoWire : Prop :=
  ∀ (i : Instr) (o : FrameOperands) (s : State) (e : ValidationError), i.frameOperands = some o →
    encodeFrame o.kind o.id o.dc o.payload = .err e →
    (s.agent = .rx → exec i s = .next s) ∧
    (s.agent = .dec → exec i s = .next { s with decoded := s.decoded ++ [.err (.short 0)] })

/-! ## The machine -/

/-- O36. A step runs the instruction its input brings: the input leaves `pending`, its agent takes the step, and the step is
`exec` of the instruction. What an input brings is said by O37. The list of inputs and the agent field are the model's own
(logs 3 and 5). -/
def Obligations.StepRunsTheFetchedInstruction : Prop :=
  ∀ (s : State) (c : Input) (later : List Input) (i : Instr), s.pending = c :: later → fetch c = some i →
    step s = exec i { s with pending := later, agent := c.agent.getD s.agent }

/-- O37. What inputs bring: the byte of a byte-class row brings that row; the bytes of a pattern row, as a batch for RX or as
DECODE's operand, bring that row, and only they do; an ENCODE call brings the kind row of its operands. Which row stands for which call is THE MODEL'S CHOICE
(log 11): R64 gives the operations no rows. -/
def Obligations.FetchReadsTheWire : Prop :=
  (∀ (i : Instr) (b : Byte), encode i = [b] → i.view = .byte → fetch (.rxByte b) = some i) ∧
  (∀ (i : Instr) (bs : List Byte), i.view = .pattern →
    (fetch (.rxRun bs) = some i ↔ bs = encode i) ∧ (fetch (.decode bs) = some i ↔ bs = encode i)) ∧
  (∀ (kind : Kind) (id : Byte) (dc : Nat) (payload : List Byte) (i : Instr),
    fetch (.encode kind id dc payload) = some i ↔ i = Instr.ofFrame ⟨kind, id, dc, payload⟩)

/-- O38. Running the instruction an input brings is performing the operation the input names: reading whole frames as
instructions changes nothing of what ENCODE, DECODE, RXBYTE, RXRUN, RESET and the helper functions do (D2). That the head of `pending` moves, and that `agent` then names its
agent, is the model's choice (logs 3 and 5). -/
def Obligations.StepPerformsTheOperation : Prop :=
  ∀ (s : State) (c : Input) (later : List Input), s.pending = c :: later →
    step s = .next (perform c { s with pending := later, agent := c.agent.getD s.agent })

/-- O39. RESET (R190): `cnt` becomes 0 and nothing is emitted, in any state; the results of the codec stay; afterwards
continuation bytes are discarded one by one until a header byte (R191). -/
def Obligations.ResetForgetsThePartialFrame : Prop :=
  ∀ (s : State) (later : List Input), s.pending = .reset :: later → ∃ t : State, step s = .next t ∧ t.rx.cnt = 0 ∧
    t.pending = later ∧ t.emitted = s.emitted ∧ t.encoded = s.encoded ∧ t.decoded = s.decoded ∧ t.helpers = s.helpers ∧
    ∀ bs : List Byte, (∀ b ∈ bs, isHeader b = false) → rxRun t.rx bs = (t.rx, [])

/-- O40. The calls to ENCODE, DECODE and the helper functions leave the receiver and what it emitted alone, and inputs of the
receiver leave the answers of the codec alone (R5, R14, R162). -/
def Obligations.AgentsShareNoState : Prop :=
  ∀ (s t : State) (c : Input) (later : List Input), s.pending = c :: later → step s = .next t →
    (c.toReceiver = false → t.rx = s.rx ∧ t.emitted = s.emitted ∧ t.fresh = s.fresh) ∧
    (c.toReceiver = true → t.encoded = s.encoded ∧ t.decoded = s.decoded ∧ t.helpers = s.helpers)

/-- O41. Steps of different agents commute (R5): two inputs taken by different agents, presented in either order, leave the
same state, up to which agent moved last. -/
def Obligations.StepsOfDifferentAgentsCommute : Prop :=
  ∀ (s : State) (c d : Input) (later : List Input), c.agent ≠ d.agent → ∃ m t n u : State,
    step { s with pending := c :: d :: later } = .next m ∧ step m = .next t ∧
      step { s with pending := d :: c :: later } = .next n ∧ step n = .next u ∧
      { t with agent := .rx } = { u with agent := .rx }

/-- O42. What has been handed out is never taken back or altered (R20, R194, R39): each step only appends to the emitted
frames and to the answers. -/
def Obligations.HandedOutResultsStand : Prop :=
  ∀ (s t : State), step s = .next t → s.emitted <+: t.emitted ∧ s.encoded <+: t.encoded ∧ s.decoded <+: t.decoded ∧
    s.helpers <+: t.helpers

/-- O43. The machine never stops (R8, R120): every step answers a next state and takes exactly one input if one is presented
(R38, R137); with none presented it waits, changing nothing (R134, R200). -/
def Obligations.EveryStepAnswers : Prop :=
  ∀ s : State, ∃ t : State, step s = .next t ∧ t.pending = s.pending.tail ∧ (s.pending = [] → t = s)

/-- O44. The machine's invariant (R18, R90, R136) is kept by every step, from every state that meets it. -/
def Obligations.StepKeepsTheInvariant : Prop :=
  ∀ s t : State, s.Inv → step s = .next t → t.Inv

/-- O45. The machine's invariant holds right after reset, the receiver is in AwaitHeader and no frame is pending (R19). That
the buffer holds zeros there is the model's choice (log 1) and is not stated. -/
def Obligations.ResetMeetsTheInvariant : Prop :=
  State.reset.Inv ∧ State.reset.rx.cnt = 0 ∧ State.reset.emitted = []
end

