-- ==== Sys2Proof/Laws/Header.lean ====
section
/-! SUPPORT. The header byte and the lengths: what the field readers give of the bytes ENCODE builds, and the ranges of the
fields (spec/30_encoding.md R50 to R56). -/

namespace Sys2Proof

theorem isHeader_zero : isHeader 0 = false := rfl

theorem isHeader_or (a b : Byte) : isHeader (a ||| b) = (isHeader a || isHeader b) := by simp [isHeader]

theorem isHeader_masked (v : Byte) : isHeader (v &&& 0x7F#8) = false := by simp [isHeader]

theorem isHeader_shifted (v : Byte) (n : Nat) (h : 1 ≤ n) : isHeader (v >>> n) = false := by
  simp only [isHeader, BitVec.getLsbD_ushiftRight]
  exact BitVec.getLsbD_of_ge _ _ (by omega)

theorem isHeader_headerByteOf (k : Kind) (d : BitVec 3) (i : BitVec 2) : isHeader (headerByteOf k d i) = true := by
  simp [isHeader, headerByteOf]

theorem isHeader_continuationByteOf (r : BitVec 7) : isHeader (continuationByteOf r) = false := by
  simp [isHeader, continuationByteOf]

theorem isHeader_header0 (k : Kind) (dc : Nat) (id : Byte) : isHeader (header0 k dc id) = true := by
  simp [isHeader, header0]

theorem isHeader_header1 (id : Byte) : isHeader (header1 id) = false := by simp [isHeader, header1]

/-- A number below `2 ^ k` has no bit set at `k` or above. -/
theorem getLsbD_of_toNat_lt {w k j : Nat} {x : BitVec w} (h : x.toNat < 2 ^ k) (hj : k ≤ j) : x.getLsbD j = false := by
  rw [BitVec.getLsbD]
  exact Nat.testBit_lt_two_pow (lt_of_lt_of_le h (Nat.pow_le_pow_right (by norm_num) hj))

theorem dcOf_bounds (b : Byte) : 1 ≤ dcOf b ∧ dcOf b ≤ 8 := by
  have : (dcm1Of b).toNat < 8 := (dcm1Of b).isLt
  simp [dcOf]; omega

theorem kindOf_header0 (k : Kind) (dc : Nat) (id : Byte) (h1 : 1 ≤ dc) (h8 : dc ≤ 8) : kindOf (header0 k dc id) = k := by
  have key : ∀ d : Fin 8, (header0 k (d + 1) id).extractLsb' 5 2 = k.code := by
    intro d
    apply BitVec.eq_of_getElem_eq; intro i hi
    fin_cases d <;> cases k <;> interval_cases i <;> simp [header0, Kind.code]
  have h := key ⟨dc - 1, by omega⟩
  simp only [Nat.sub_add_cancel h1] at h
  rw [kindOf, h]; cases k <;> rfl

theorem dcOf_header0 (k : Kind) (dc : Nat) (id : Byte) (h1 : 1 ≤ dc) (h8 : dc ≤ 8) : dcOf (header0 k dc id) = dc := by
  have key : ∀ d : Fin 8, dcm1Of (header0 k (d + 1) id) = BitVec.ofNat 3 d := by
    intro d
    rw [dcm1Of]
    apply BitVec.eq_of_getElem_eq; intro i hi
    fin_cases d <;> cases k <;> interval_cases i <;> simp [header0, Kind.code]
  have h := key ⟨dc - 1, by omega⟩
  simp only [Nat.sub_add_cancel h1] at h
  rw [dcOf, h]; simp; omega

/-- The id comes back from `w[0]` and from any second byte that carries its low six bits. -/
theorem idOf_header0 (k : Kind) (dc : Nat) (id b1 : Byte) (h1 : 1 ≤ dc) (h8 : dc ≤ 8)
    (hb : (b1 >>> 1) &&& 0x3F#8 = id &&& 0x3F#8) : idOf (header0 k dc id) b1 = id := by
  have key : ∀ d : Fin 8, ((header0 k (d + 1) id) &&& 3#8) <<< 6 = id &&& 0xC0#8 := by
    intro d
    apply BitVec.eq_of_getElem_eq; intro i hi
    fin_cases d <;> cases k <;> interval_cases i <;> simp [header0, Kind.code]
  have h := key ⟨dc - 1, by omega⟩
  simp only [Nat.sub_add_cancel h1] at h
  rw [idOf, h, hb]
  ext i hi
  interval_cases i <;> simp

/-- A header byte is rebuilt from its fields. -/
theorem header0_of_fields (b0 b1 : Byte) (h : isHeader b0 = true) : header0 (kindOf b0) (dcOf b0) (idOf b0 b1) = b0 := by
  have e : ∀ b1, idOf b0 b1 >>> 6 = b0 &&& 3#8 := by
    intro b1
    apply BitVec.eq_of_getElem_eq; intro i hi
    interval_cases i <;> simp [idOf]
  rw [header0, e]
  revert h; clear e; revert b0; decide

theorem frameLen_bounds (k : Kind) (dc : Nat) (h1 : 1 ≤ dc) (h8 : dc ≤ 8) : 2 ≤ frameLen k dc ∧ frameLen k dc ≤ 11 := by
  unfold frameLen lenOf Config.hdrLen; split <;> omega

theorem frameLenH_bounds (h : Byte) : 2 ≤ frameLenH h ∧ frameLenH h ≤ 11 :=
  frameLen_bounds _ _ (dcOf_bounds h).1 (dcOf_bounds h).2

theorem ignoredBits_le (k : Kind) (dc : Nat) (h1 : 1 ≤ dc) (h8 : dc ≤ 8) : ignoredBits k dc ≤ 6 := by
  unfold ignoredBits lenOf; split <;> omega

/-- The byte-class decoder and encoder undo each other, on every byte. -/
theorem encode_decodeByte (b : Byte) : encode (decodeByte b) = [b] := by revert b; decide

theorem decodeByte_headerByteOf (k : Kind) (d : BitVec 3) (i : BitVec 2) :
    decodeByte (headerByteOf k d i) = .headerByte k d i := by
  revert d i; cases k <;> decide

theorem decodeByte_continuationByteOf (r : BitVec 7) : decodeByte (continuationByteOf r) = .continuationByte r := by
  revert r; decide

end Sys2Proof
end

