-- ==== Sys2Proof/Laws/Codec.lean ====
section
/-! SUPPORT. ENCODE with PACK and DECODE with UNPACK: lengths, markers, what a successful call says of its operands and bytes
(spec/40_encode.md R81 to R90, spec/41_decode.md R101 to R108), and that UNPACK undoes PACK whatever the ignored bits. -/

namespace Sys2Proof

/-! ## PACK -/

theorem length_packLoop (vs : List Byte) (i pos : Nat) (w : List Byte) : (packLoop vs i pos w).length = w.length := by
  induction vs generalizing i pos w with
  | nil => rfl
  | cons v vs ih => simp only [packLoop]; split <;> rw [ih] <;> simp

/-- PACK leaves every byte before its start alone. -/
theorem packLoop_getD_lt (vs : List Byte) (i pos k : Nat) (w : List Byte) (hk : k < i) :
    (packLoop vs i pos w).getD k 0 = w.getD k 0 := by
  induction vs generalizing i pos w with
  | nil => rfl
  | cons v vs ih =>
    simp only [packLoop]
    split <;> rw [ih _ _ _ (by omega)] <;>
      simp [show ¬ i + 1 = k by omega, show ¬ i = k by omega]

theorem isHeader_getD_modify (w : List Byte) (i k : Nat) (m : Byte) (hm : isHeader m = false)
    (h : isHeader (w.getD k 0) = false) : isHeader ((w.modify i (fun x => x ||| m)).getD k 0) = false := by
  simp only [List.getD_eq_getElem?_getD, List.getElem?_modify] at *
  cases hw : w[k]? with
  | none => simp [isHeader]
  | some x =>
    simp only [hw, Option.getD_some] at h
    by_cases e : i = k <;> simp [e, isHeader_or, h, hm]

theorem isHeader_getD_set (w : List Byte) (i k : Nat) (m : Byte) (hm : isHeader m = false)
    (h : isHeader (w.getD k 0) = false) : isHeader ((w.set i m).getD k 0) = false := by
  simp only [List.getD_eq_getElem?_getD, List.getElem?_set] at *
  by_cases e : i = k
  · subst e
    by_cases l : i < w.length <;> simp [l, hm]
    rfl
  · rw [if_neg e]; exact h

/-- PACK sets no marker (R90). -/
theorem packLoop_marker (vs : List Byte) (i pos k : Nat) (w : List Byte) (hp : pos ≤ 6)
    (h : isHeader (w.getD k 0) = false) : isHeader ((packLoop vs i pos w).getD k 0) = false := by
  induction vs generalizing i pos w with
  | nil => exact h
  | cons v vs ih =>
    simp only [packLoop]
    have := isHeader_getD_set _ (i + 1) k _ (isHeader_masked (v <<< pos))
      (isHeader_getD_modify w i k _ (isHeader_shifted v (7 - pos) (by omega)) h)
    split <;> exact ih _ _ _ (by omega) this

/-! ## ENCODE -/

/-- What ENCODE answers to valid operands. -/
theorem encodeFrame_valid (o : FrameOperands) (h : o.valid) :
    encodeFrame o.kind o.id o.dc o.payload = .ok (if o.kind = .readRequest then [header0 o.kind o.dc o.id, header1 o.id]
      else pack o.payload (blankFrame o.kind o.id o.dc)) := by
  obtain ⟨h1, h8, hp, _⟩ := h
  rw [encodeFrame, if_neg (by simp [Config.dcMin, Config.dcMax]; omega)]
  split
  · rfl
  · rename_i hk; rw [if_neg (by simpa using hp hk)]

/-- ENCODE succeeds only on valid operands (R81, R82). -/
theorem valid_of_encodeFrame {k : Kind} {id : Byte} {dc : Nat} {p w : List Byte} (h : encodeFrame k id dc p = .ok w) :
    FrameOperands.valid ⟨k, id, dc, p, 0⟩ := by
  rw [encodeFrame] at h
  split at h
  · cases h
  · rename_i hd
    simp [Config.dcMin, Config.dcMax] at hd
    refine ⟨by simp; omega, by simp; omega, ?_, by simp⟩
    intro hk
    rw [if_neg hk] at h
    split at h
    · cases h
    · rename_i hl; simpa using hl

theorem exists_cons_of_length {dc : Nat} {l : List Byte} (h : l.length = dc + 1) : ∃ a t, l = a :: t ∧ t.length = dc := by
  cases l with
  | nil => simp at h
  | cons a t => exact ⟨a, t, rfl, by simpa using h⟩

/-- The bytes ENCODE answers: their number, their first byte, no marker after it, and the low id bits in the second. -/
theorem encodeFrame_bytes (o : FrameOperands) (h : o.valid) (w : List Byte)
    (hw : encodeFrame o.kind o.id o.dc o.payload = .ok w) :
    w.length = frameLen o.kind o.dc ∧ w.getD 0 0 = header0 o.kind o.dc o.id ∧
      (∀ k, 1 ≤ k → isHeader (w.getD k 0) = false) ∧ ((w.getD 1 0) >>> 1) &&& 0x3F#8 = o.id &&& 0x3F#8 := by
  rw [encodeFrame_valid o h] at hw
  obtain ⟨h1, h8, hp, _⟩ := h
  injection hw with hw
  have hid : ((header1 o.id) >>> 1) &&& 0x3F#8 = o.id &&& 0x3F#8 := by
    apply BitVec.eq_of_getElem_eq; intro i hi
    interval_cases i <;> simp [header1]
  have hbl : ∀ k, 1 ≤ k → isHeader ((blankFrame o.kind o.id o.dc).getD k 0) = false := by
    intro k hk
    match k, hk with
    | 1, _ => exact isHeader_header1 _
    | k + 2, _ =>
      simp only [blankFrame, List.getD_eq_getElem?_getD, List.getElem?_cons_succ, List.getElem?_replicate]
      split <;> rfl
  split at hw
  · rename_i hk
    subst hw
    refine ⟨by simp [frameLen, hk, Config.hdrLen], rfl, ?_, hid⟩
    intro k hk
    match k, hk with
    | 1, _ => exact isHeader_header1 _
    | k + 2, _ => simp [isHeader]
  · rename_i hk
    subst hw
    refine ⟨by simp [pack, length_packLoop, blankFrame, frameLen, hk, lenOf], ?_, ?_, ?_⟩
    · rw [pack, packLoop_getD_lt _ _ _ _ _ (by omega)]; rfl
    · intro k hk; exact packLoop_marker _ _ _ _ _ (by omega) (hbl k hk)
    · have hp := hp hk
      obtain ⟨d, hd⟩ : ∃ d, o.dc = d + 1 := ⟨o.dc - 1, by omega⟩
      rw [hd] at hp
      obtain ⟨a, t, hat, _⟩ := exists_cons_of_length hp
      rw [hat, pack, packLoop, if_pos rfl, packLoop_getD_lt _ _ _ _ _ (by omega)]
      simp only [List.getD_eq_getElem?_getD, List.getElem?_set, List.getElem?_modify, blankFrame]
      simp only [show ¬ (1 + 1 = 1) by omega, if_false, if_true, List.getElem?_cons_succ, List.getElem?_cons_zero,
        Option.map_eq_map, Option.map_some, Option.getD_some]
      apply BitVec.eq_of_getElem_eq; intro i hi
      interval_cases i <;> simp [header1]

/-! ## DECODE -/

theorem length_unpackLoop (n i pos : Nat) (bs : List Byte) : (unpackLoop n i pos bs).length = n := by
  induction n generalizing i pos with
  | zero => rfl
  | succ n ih => simp only [unpackLoop, List.length_cons]; split <;> rw [ih]

theorem length_unpack (dc : Nat) (bs : List Byte) : (unpack dc bs).length = dc := length_unpackLoop _ _ _ _

/-- UNPACK undoes PACK, whatever stands in the ignored bits of the last byte. -/
theorem unpack_pack (dc : Nat) (h1 : 1 ≤ dc) (h8 : dc ≤ 8) (p : List Byte) (hp : p.length = dc) (b0 b1 ign : Byte)
    (hb : b1.getLsbD 0 = false) (hi : ign.toNat < 2 ^ (7 * (lenOf dc - 2) - (8 * dc - 1))) :
    unpack dc ((pack p (b0 :: b1 :: List.replicate (lenOf dc - 2) 0)).modify (lenOf dc - 1) (fun x => x ||| ign)) = p := by
  have hbits := fun j hj => getLsbD_of_toNat_lt (j := j) hi hj
  interval_cases dc
  all_goals simp only [lenOf] at hbits ⊢
  all_goals
    repeat' (first
      | (obtain rfl := List.length_eq_zero_iff.mp hp)
      | (obtain ⟨a, t, rfl, hp'⟩ := exists_cons_of_length hp; clear hp; rename' hp' => hp))
  all_goals simp [unpack, unpackLoop, pack, packLoop, List.replicate, List.modify]
  all_goals repeat' constructor
  all_goals
    apply BitVec.eq_of_getElem_eq; intro i hi
    have hb' : b1[0] = false := hb
    have hbits' := fun (j : Nat) (h : j < 8) hk => (BitVec.getLsbD_eq_getElem h).symm.trans (hbits j hk)
    interval_cases i <;> simp [hb', hbits']

theorem firstMarker_none (k : Nat) (l : List Byte) : firstMarker k l = none ↔ ∀ b ∈ l, isHeader b = false := by
  induction l generalizing k with
  | nil => simp [firstMarker]
  | cons b l ih => cases h : isHeader b <;> simp [firstMarker, h, ih]

/-- What a successful DECODE says of its bytes and its frame. -/
theorem decodeFrame_ok {bs : List Byte} {f : Frame} (h : decodeFrame bs = .ok f) :
    ∃ b0 b1 tail, bs = b0 :: b1 :: tail ∧ isHeader b0 = true ∧ isHeader b1 = false ∧
      f.kind = kindOf b0 ∧ f.id = idOf b0 b1 ∧ f.dc = dcOf b0 ∧
      ((kindOf b0 = .readRequest ∧ f.payload = []) ∨
        (kindOf b0 ≠ .readRequest ∧ WireShaped bs ∧ f.payload = unpack (dcOf b0) bs)) := by
  match bs with
  | [] => cases h
  | [_] => cases h
  | b0 :: b1 :: tail =>
    refine ⟨b0, b1, tail, rfl, ?_⟩
    simp only [decodeFrame, decodeFrameWith, Config.rrStrictLength, Bool.false_and] at h
    split at h
    · cases h
    · rename_i hb0
      split at h
      · cases h
      · rename_i hb1
        have hb0 : isHeader b0 = true := by simpa using hb0
        have hb1 : isHeader b1 = false := by simpa using hb1
        split at h
        · rename_i hk
          simp at h; subst h
          exact ⟨hb0, hb1, hk.symm, rfl, rfl, .inl ⟨hk, rfl⟩⟩
        · rename_i hk
          split at h
          · cases h
          · rename_i hl
            split at h
            · cases h
            · rename_i hm
              injection h with h; subst h
              refine ⟨hb0, hb1, rfl, rfl, rfl, .inr ⟨hk, ⟨hb0, ?_, ?_⟩, rfl⟩⟩
              · intro b hb
                rcases List.mem_cons.mp hb with rfl | hb
                · exact hb1
                · exact (firstMarker_none 2 tail).mp hm b hb
              · rw [List.headD_cons, frameLenH, frameLen, if_neg hk]
                simpa using hl

/-- A decoded frame is well formed (R9). -/
theorem wf_of_decodeFrame {bs : List Byte} {f : Frame} (h : decodeFrame bs = .ok f) : f.wf = true := by
  obtain ⟨b0, b1, tail, rfl, h0, h1, e1, e2, e3, e4⟩ := decodeFrame_ok h
  have := dcOf_bounds b0
  rcases e4 with ⟨hk, hp⟩ | ⟨hk, hs, hp⟩ <;>
    simp [Frame.wf, Config.dcMin, Config.dcMax, e1, e3, hk, hp, this, length_unpack]

/-- Bytes of the wire shape always decode, to the kind and the count of their header (R131). -/
theorem decodeFrame_of_shape {w : List Byte} (h : WireShaped w) :
    ∃ f, decodeFrame w = .ok f ∧ f.kind = kindOf (w.headD 0) ∧ f.dc = dcOf (w.headD 0) := by
  obtain ⟨a, b, c⟩ := h
  have hb := frameLenH_bounds (w.headD 0)
  match w with
  | [] => simp [isHeader] at a
  | [x] => simp at c hb; omega
  | b0 :: b1 :: tail =>
    simp only [List.headD_cons, List.tail_cons, List.length_cons] at a b c
    have hb1 := b b1 (by simp)
    by_cases hk : kindOf b0 = .readRequest
    · exact ⟨_, by simp [decodeFrame, decodeFrameWith, a, hb1, hk, Config.rrStrictLength]; rfl, by simp [hk], by simp⟩
    · have hl : tail.length + 2 = lenOf (dcOf b0) := by rw [frameLenH, frameLen, if_neg hk] at c; omega
      have hf := (firstMarker_none 2 tail).mpr (fun x hx => b x (by simp [hx]))
      exact ⟨_, by simp [decodeFrame, decodeFrameWith, a, hb1, hk, hl, hf]; rfl, by simp, by simp⟩

/-! ## Frame rows -/

theorem encode_frameRow {i : Instr} {o : FrameOperands} (h : i.frameOperands = some o) : encode i = o.wire := by
  cases i <;> simp_all [encode, Instr.frameOperands]

/-- The operands of a pattern row are always valid: its counts and widths are in its type. -/
theorem valid_of_pattern {i : Instr} {o : FrameOperands} (h : i.frameOperands = some o) (hv : i.view = .pattern) :
    o.valid := by
  cases i <;> cases hv
  all_goals (injection h with h; subst h)
  all_goals (refine ⟨by simp, by simp, by simp, ?_⟩)
  all_goals simp [ignoredBits, lenOf]
  all_goals (rename_i p; have := p.isLt; omega)

end Sys2Proof
end

