-- ==== Sys2Proof/Laws/Rx.lean ====
section
/-! SUPPORT. The receiver: its buffer, and everything one RXBYTE step can do, once for each rule (spec/42_rx_sync.md R121 to
R128) and as one case analysis. -/

namespace Sys2Proof.Machine

/-! ## The buffer -/

/-- After a store inside the buffer the entry stored to reads as the byte stored, every other entry as before. -/
theorem RxState.store_written (r : RxState) (c : BitVec 4) (n : Nat) (b : Byte) (h : n < 11) :
    r.WrittenAt ⟨c, r.store n b⟩ n b := by
  intro i
  simp only [RxState.entry, RxState.store, Vector.getElem?_setIfInBounds]
  by_cases e : n = i
  · subst e; simp [h]
  · simp [e, show ¬ i = n from fun h => e h.symm]

theorem RxState.length_contents (r : RxState) (n : Nat) (h : n ≤ 11) : (r.contents n).length = n := by
  simp [RxState.contents]; omega

/-- The entries up to and with the one just stored. -/
theorem RxState.contents_store (r : RxState) (c : BitVec 4) (n : Nat) (b : Byte) (hn : n < 11) :
    RxState.contents ⟨c, r.store n b⟩ (n + 1) = r.contents n ++ [b] := by
  simp only [RxState.contents, RxState.store, Vector.toList_setIfInBounds]
  rw [List.take_succ_eq_append_getElem (by simpa using hn), List.take_set_of_le (le_refl _)]
  simp

/-- A store past entry 0 leaves the predicted length alone. -/
theorem RxState.expectedLen_store (r : RxState) (c : BitVec 4) (n : Nat) (b : Byte) (hn : n ≠ 0) :
    RxState.expectedLen ⟨c, r.store n b⟩ = r.expectedLen := by
  simp [RxState.expectedLen, RxState.store, hn]

/-- The predicted length is FRAMELEN of the two views of entry 0 (R13). -/
theorem RxState.expectedLen_eq (r : RxState) : r.expectedLen = frameLen r.kind r.dc := rfl

/-! ## The counter -/

theorem cnt_toNat_eq_zero (c : BitVec 4) : c.toNat = 0 ↔ c = 0 :=
  ⟨fun h => BitVec.eq_of_toNat_eq h, fun h => by rw [h]; rfl⟩

theorem cnt_toNat_succ (c : BitVec 4) (h : c.toNat ≤ 10) : (c + 1).toNat = c.toNat + 1 := by
  rw [BitVec.toNat_add]; simp; omega

/-! ## RXBYTE, rule by rule -/

/-- Rule 1. -/
theorem rxByte_header (r : RxState) (b : Byte) (h : isHeader b = true) :
    rxByte r b = ({ cnt := 1, buf := r.store 0 b }, none) := by
  have := frameLenH_bounds b
  have e : RxState.expectedLen ⟨1, r.store 0 b⟩ = frameLenH b := by simp [RxState.expectedLen, RxState.store]
  rw [rxByte, if_pos h, RxState.complete, e, if_neg (by simp; omega)]

/-- Rule 2. -/
theorem rxByte_unsync (r : RxState) (b : Byte) (h : isHeader b = false) (hc : r.cnt = 0) : rxByte r b = (r, none) := by
  simp [rxByte, h, hc]

/-- Rule 3. -/
theorem rxByte_overflow (r : RxState) (b : Byte) (h : isHeader b = false) (hc : 11 ≤ r.cnt.toNat) :
    rxByte r b = ({ r with cnt := 0 }, none) := by
  have : r.cnt ≠ 0 := by intro e; simp [e] at hc
  rw [rxByte, if_neg (by simp [h]), if_neg this, if_pos (show Config.ovfGuard ≤ _ from hc)]

/-- Rule 4, with completion and without. -/
theorem rxByte_collect (r : RxState) (b : Byte) (h : isHeader b = false) (h1 : 1 ≤ r.cnt.toNat) (h10 : r.cnt.toNat ≤ 10) :
    rxByte r b = if r.cnt.toNat + 1 = r.expectedLen
      then ({ cnt := 0, buf := r.store r.cnt.toNat b }, frameOf (r.contents r.cnt.toNat ++ [b]))
      else ({ cnt := r.cnt + 1, buf := r.store r.cnt.toNat b }, none) := by
  have h0 : r.cnt ≠ 0 := by intro e; simp [e] at h1
  rw [rxByte, if_neg (by simp [h]), if_neg h0, if_neg (show ¬ Config.ovfGuard ≤ _ from by simp [Config.ovfGuard]; omega),
    RxState.complete, r.expectedLen_store _ _ b (by omega)]
  simp only [cnt_toNat_succ _ h10, r.contents_store _ _ b (show r.cnt.toNat < 11 by omega)]

/-- Everything one RXBYTE step can do. -/
theorem rxByte_cases (r : RxState) (b : Byte) :
    (isHeader b = true ∧ rxByte r b = ({ cnt := 1, buf := r.store 0 b }, none)) ∨
    (isHeader b = false ∧ r.cnt = 0 ∧ rxByte r b = (r, none)) ∨
    (isHeader b = false ∧ 11 ≤ r.cnt.toNat ∧ rxByte r b = ({ r with cnt := 0 }, none)) ∨
    (isHeader b = false ∧ 1 ≤ r.cnt.toNat ∧ r.cnt.toNat ≤ 10 ∧ r.cnt.toNat + 1 = r.expectedLen ∧
      rxByte r b = ({ cnt := 0, buf := r.store r.cnt.toNat b }, frameOf (r.contents r.cnt.toNat ++ [b]))) ∨
    (isHeader b = false ∧ 1 ≤ r.cnt.toNat ∧ r.cnt.toNat ≤ 10 ∧ r.cnt.toNat + 1 ≠ r.expectedLen ∧
      rxByte r b = ({ cnt := r.cnt + 1, buf := r.store r.cnt.toNat b }, none)) := by
  cases h : isHeader b
  · right
    by_cases h0 : r.cnt = 0
    · exact .inl ⟨rfl, h0, rxByte_unsync r b h h0⟩
    · right
      have h1 : 1 ≤ r.cnt.toNat := Nat.one_le_iff_ne_zero.mpr (fun e => h0 ((cnt_toNat_eq_zero _).mp e))
      by_cases h11 : 11 ≤ r.cnt.toNat
      · exact .inl ⟨rfl, h11, rxByte_overflow r b h h11⟩
      · right
        have := rxByte_collect r b h h1 (by omega)
        by_cases hl : r.cnt.toNat + 1 = r.expectedLen
        · exact .inl ⟨rfl, h1, by omega, hl, by rw [this, if_pos hl]⟩
        · exact .inr ⟨rfl, h1, by omega, hl, by rw [this, if_neg hl]⟩
  · exact .inl ⟨rfl, rxByte_header r b h⟩

/-! ## RXRUN -/

@[simp] theorem rxRun_nil (r : RxState) : rxRun r [] = (r, []) := rfl

theorem rxRun_single (r : RxState) (b : Byte) : rxRun r [b] = ((rxByte r b).1, (rxByte r b).2.toList) := by simp [rxRun]

/-- RX of one byte as a batch is RXBYTE. -/
theorem State.receive_single (s : State) (b : Byte) : s.receive [b] = s.byteStep b := by
  simp [State.receive, State.byteStep, rxRun_single]

end Sys2Proof.Machine
end

