-- ==== Sys2Proof/Laws/State.lean ====
section
/-! SUPPORT. Each update of the state, field by field: what it writes and what it leaves alone. -/

namespace Sys2Proof.Machine

/-! `State.receive` -/

@[simp] theorem State.receive_rx (s : State) (bs : List Byte) :
    (s.receive bs).rx = (rxRun s.rx bs).1 := rfl
@[simp] theorem State.receive_pending (s : State) (bs : List Byte) :
    (s.receive bs).pending = s.pending := rfl
@[simp] theorem State.receive_agent (s : State) (bs : List Byte) :
    (s.receive bs).agent = s.agent := rfl
@[simp] theorem State.receive_emitted (s : State) (bs : List Byte) :
    (s.receive bs).emitted = s.emitted ++ (rxRun s.rx bs).2 := rfl
@[simp] theorem State.receive_encoded (s : State) (bs : List Byte) :
    (s.receive bs).encoded = s.encoded := rfl
@[simp] theorem State.receive_decoded (s : State) (bs : List Byte) :
    (s.receive bs).decoded = s.decoded := rfl
@[simp] theorem State.receive_helpers (s : State) (bs : List Byte) :
    (s.receive bs).helpers = s.helpers := rfl
@[simp] theorem State.receive_fresh (s : State) (bs : List Byte) :
    (s.receive bs).fresh = s.fresh := rfl

/-! `State.transmit` -/

@[simp] theorem State.transmit_rx (s : State) (kind : Kind) (id : Byte) (dc : Nat) (payload : List Byte) :
    (s.transmit kind id dc payload).rx = s.rx := rfl
@[simp] theorem State.transmit_pending (s : State) (kind : Kind) (id : Byte) (dc : Nat) (payload : List Byte) :
    (s.transmit kind id dc payload).pending = s.pending := rfl
@[simp] theorem State.transmit_agent (s : State) (kind : Kind) (id : Byte) (dc : Nat) (payload : List Byte) :
    (s.transmit kind id dc payload).agent = s.agent := rfl
@[simp] theorem State.transmit_emitted (s : State) (kind : Kind) (id : Byte) (dc : Nat) (payload : List Byte) :
    (s.transmit kind id dc payload).emitted = s.emitted := rfl
@[simp] theorem State.transmit_encoded (s : State) (kind : Kind) (id : Byte) (dc : Nat) (payload : List Byte) :
    (s.transmit kind id dc payload).encoded = s.encoded ++ [encodeFrame kind id dc payload] := rfl
@[simp] theorem State.transmit_decoded (s : State) (kind : Kind) (id : Byte) (dc : Nat) (payload : List Byte) :
    (s.transmit kind id dc payload).decoded = s.decoded := rfl
@[simp] theorem State.transmit_helpers (s : State) (kind : Kind) (id : Byte) (dc : Nat) (payload : List Byte) :
    (s.transmit kind id dc payload).helpers = s.helpers := rfl
@[simp] theorem State.transmit_fresh (s : State) (kind : Kind) (id : Byte) (dc : Nat) (payload : List Byte) :
    (s.transmit kind id dc payload).fresh = s.fresh := rfl

/-! `State.decodeCall` -/

@[simp] theorem State.decodeCall_rx (s : State) (bs : List Byte) :
    (s.decodeCall bs).rx = s.rx := rfl
@[simp] theorem State.decodeCall_pending (s : State) (bs : List Byte) :
    (s.decodeCall bs).pending = s.pending := rfl
@[simp] theorem State.decodeCall_agent (s : State) (bs : List Byte) :
    (s.decodeCall bs).agent = s.agent := rfl
@[simp] theorem State.decodeCall_emitted (s : State) (bs : List Byte) :
    (s.decodeCall bs).emitted = s.emitted := rfl
@[simp] theorem State.decodeCall_encoded (s : State) (bs : List Byte) :
    (s.decodeCall bs).encoded = s.encoded := rfl
@[simp] theorem State.decodeCall_decoded (s : State) (bs : List Byte) :
    (s.decodeCall bs).decoded = s.decoded ++ [decodeFrame bs] := rfl
@[simp] theorem State.decodeCall_helpers (s : State) (bs : List Byte) :
    (s.decodeCall bs).helpers = s.helpers := rfl
@[simp] theorem State.decodeCall_fresh (s : State) (bs : List Byte) :
    (s.decodeCall bs).fresh = s.fresh := rfl

/-! `State.helperCall` -/

@[simp] theorem State.helperCall_rx (s : State) (v : HelperResult) :
    (s.helperCall v).rx = s.rx := rfl
@[simp] theorem State.helperCall_pending (s : State) (v : HelperResult) :
    (s.helperCall v).pending = s.pending := rfl
@[simp] theorem State.helperCall_agent (s : State) (v : HelperResult) :
    (s.helperCall v).agent = s.agent := rfl
@[simp] theorem State.helperCall_emitted (s : State) (v : HelperResult) :
    (s.helperCall v).emitted = s.emitted := rfl
@[simp] theorem State.helperCall_encoded (s : State) (v : HelperResult) :
    (s.helperCall v).encoded = s.encoded := rfl
@[simp] theorem State.helperCall_decoded (s : State) (v : HelperResult) :
    (s.helperCall v).decoded = s.decoded := rfl
@[simp] theorem State.helperCall_helpers (s : State) (v : HelperResult) :
    (s.helperCall v).helpers = s.helpers ++ [v] := rfl
@[simp] theorem State.helperCall_fresh (s : State) (v : HelperResult) :
    (s.helperCall v).fresh = s.fresh := rfl

/-! `State.resetRx` -/

@[simp] theorem State.resetRx_rx (s : State) :
    (s.resetRx).rx = { cnt := 0, buf := freeBuf s.fresh } := rfl
@[simp] theorem State.resetRx_pending (s : State) :
    (s.resetRx).pending = s.pending := rfl
@[simp] theorem State.resetRx_agent (s : State) :
    (s.resetRx).agent = s.agent := rfl
@[simp] theorem State.resetRx_emitted (s : State) :
    (s.resetRx).emitted = s.emitted := rfl
@[simp] theorem State.resetRx_encoded (s : State) :
    (s.resetRx).encoded = s.encoded := rfl
@[simp] theorem State.resetRx_decoded (s : State) :
    (s.resetRx).decoded = s.decoded := rfl
@[simp] theorem State.resetRx_helpers (s : State) :
    (s.resetRx).helpers = s.helpers := rfl
@[simp] theorem State.resetRx_fresh (s : State) :
    (s.resetRx).fresh = s.fresh + 11 := rfl

/-! `State.take` -/

@[simp] theorem State.take_rx (s : State) (c : Input) (rest : List Input) :
    (s.take c rest).rx = s.rx := rfl
@[simp] theorem State.take_pending (s : State) (c : Input) (rest : List Input) :
    (s.take c rest).pending = rest := rfl
@[simp] theorem State.take_agent (s : State) (c : Input) (rest : List Input) :
    (s.take c rest).agent = c.agent.getD s.agent := rfl
@[simp] theorem State.take_emitted (s : State) (c : Input) (rest : List Input) :
    (s.take c rest).emitted = s.emitted := rfl
@[simp] theorem State.take_encoded (s : State) (c : Input) (rest : List Input) :
    (s.take c rest).encoded = s.encoded := rfl
@[simp] theorem State.take_decoded (s : State) (c : Input) (rest : List Input) :
    (s.take c rest).decoded = s.decoded := rfl
@[simp] theorem State.take_helpers (s : State) (c : Input) (rest : List Input) :
    (s.take c rest).helpers = s.helpers := rfl
@[simp] theorem State.take_fresh (s : State) (c : Input) (rest : List Input) :
    (s.take c rest).fresh = s.fresh := rfl

/-! `State.byteStep` -/

@[simp] theorem State.byteStep_rx (s : State) (b : Byte) :
    (s.byteStep b).rx = (rxByte s.rx b).1 := rfl
@[simp] theorem State.byteStep_pending (s : State) (b : Byte) :
    (s.byteStep b).pending = s.pending := rfl
@[simp] theorem State.byteStep_agent (s : State) (b : Byte) :
    (s.byteStep b).agent = s.agent := rfl
@[simp] theorem State.byteStep_emitted (s : State) (b : Byte) :
    (s.byteStep b).emitted = s.emitted ++ (rxByte s.rx b).2.toList := rfl
@[simp] theorem State.byteStep_encoded (s : State) (b : Byte) :
    (s.byteStep b).encoded = s.encoded := rfl
@[simp] theorem State.byteStep_decoded (s : State) (b : Byte) :
    (s.byteStep b).decoded = s.decoded := rfl
@[simp] theorem State.byteStep_helpers (s : State) (b : Byte) :
    (s.byteStep b).helpers = s.helpers := rfl
@[simp] theorem State.byteStep_fresh (s : State) (b : Byte) :
    (s.byteStep b).fresh = s.fresh := rfl

/-! `State.withFetchWord` -/

@[simp] theorem State.withFetchWord_rx (s : State) (nbits w : Nat) :
    (s.withFetchWord nbits w).rx = s.rx := rfl
@[simp] theorem State.withFetchWord_pending (s : State) (nbits w : Nat) :
    (s.withFetchWord nbits w).pending = tableInput nbits w :: s.pending := rfl
@[simp] theorem State.withFetchWord_agent (s : State) (nbits w : Nat) :
    (s.withFetchWord nbits w).agent = s.agent := rfl
@[simp] theorem State.withFetchWord_emitted (s : State) (nbits w : Nat) :
    (s.withFetchWord nbits w).emitted = s.emitted := rfl
@[simp] theorem State.withFetchWord_encoded (s : State) (nbits w : Nat) :
    (s.withFetchWord nbits w).encoded = s.encoded := rfl
@[simp] theorem State.withFetchWord_decoded (s : State) (nbits w : Nat) :
    (s.withFetchWord nbits w).decoded = s.decoded := rfl
@[simp] theorem State.withFetchWord_helpers (s : State) (nbits w : Nat) :
    (s.withFetchWord nbits w).helpers = s.helpers := rfl
@[simp] theorem State.withFetchWord_fresh (s : State) (nbits w : Nat) :
    (s.withFetchWord nbits w).fresh = s.fresh := rfl

/-! What a frame row's step is, by the agent that takes it -/

theorem State.frameStep_tx {s : State} (o : FrameOperands) (h : s.agent = .tx) :
    s.frameStep o = s.transmit o.kind o.id o.dc o.payload := by
  simp [State.frameStep, h]

theorem State.frameStep_dec {s : State} (o : FrameOperands) (h : s.agent = .dec) :
    s.frameStep o = s.decodeCall o.wire := by
  simp [State.frameStep, h]

theorem State.frameStep_rx {s : State} (o : FrameOperands) (h : s.agent = .rx) : s.frameStep o = s.receive o.wire := by
  simp [State.frameStep, h]

end Sys2Proof.Machine
end

