-- ==== Sys2Proof/Laws/Exec.lean ====
section
/-! SUPPORT. What `exec` does, once for the 36 frame rows and once for the two byte-class rows, and when `fetch` brings an
instruction. -/

namespace Sys2Proof.Machine

/-- A frame row is the agent's step on the row's operands. -/
theorem exec_frameRow {i : Instr} {o : FrameOperands} (s : State) (h : i.frameOperands = some o) :
    exec i s = .next (s.frameStep o) := by
  cases i <;> first | (injection h with h; subst h; rfl) | cases h

theorem exec_headerByte (k : Kind) (d : BitVec 3) (ih : BitVec 2) (s : State) :
    exec (.headerByte k d ih) s = .next (s.byteStep (headerByteOf k d ih)) := rfl

theorem exec_continuationByte (rest : BitVec 7) (s : State) :
    exec (.continuationByte rest) s = .next (s.byteStep (continuationByteOf rest)) := rfl

/-- The row a byte decodes to is the RXBYTE step on that byte. -/
theorem exec_decodeByte (b : Byte) (s : State) : exec (decodeByte b) s = .next (s.byteStep b) := by
  have hb : encode (decodeByte b) = [b] := encode_decodeByte b
  cases h : isHeader b
  · rw [decodeByte, if_neg (by simp [h])] at *
    injection hb with hb
    exact congrArg (fun z => Host.Outcome.next (s.byteStep z)) hb
  · rw [decodeByte, if_pos h] at *
    injection hb with hb
    exact congrArg (fun z => Host.Outcome.next (s.byteStep z)) hb

/-- Every frame's kind row has its operands. -/
theorem frameOperands_ofFrame (f : Frame) : (Instr.ofFrame f).frameOperands = some ⟨f.kind, f.id, f.dc, f.payload, 0⟩ := by
  obtain ⟨k, id, dc, p⟩ := f
  cases k <;> rfl

/-- A decoded frame's pattern row is a frame row of the pattern view. -/
theorem frameOperands_ofPattern (f : Frame) (last : Byte) :
    ∃ o, (Instr.ofPattern f last).frameOperands = some o ∧ (Instr.ofPattern f last).view = .pattern := by
  unfold Instr.ofPattern; split <;> exact ⟨_, rfl, rfl⟩

end Sys2Proof.Machine
end

