-- ==== Sys2Proof/Laws/PerInstr.lean ====
section
/-! SUPPORT. Per instruction: a well-formed instruction is as many bytes on the wire as FRAMELEN says of its row
(spec/30_encoding.md R56, R110), and one for a byte-class row. -/

namespace Sys2Proof

theorem FrameOperands.length_wire {o : FrameOperands} (h : o.valid) : o.wire.length = frameLen o.kind o.dc := by
  have e := encodeFrame_valid o h
  rw [FrameOperands.wire, e]
  simpa using (encodeFrame_bytes o h _ e).1

/-- A well-formed frame gives ENCODE valid operands. -/
theorem Frame.valid_of_wf {k : Kind} {id : Byte} {dc : Nat} {p : List Byte} (h : Frame.wf ⟨k, id, dc, p⟩ = true) :
    FrameOperands.valid ⟨k, id, dc, p, 0⟩ := by
  simp only [Frame.wf, Bool.and_eq_true] at h
  refine ⟨of_decide_eq_true h.1.1, of_decide_eq_true h.1.2, fun hk => ?_, by simp⟩
  have := h.2
  rw [if_neg hk] at this; simpa using this

/-- A frame row that is well formed gives ENCODE valid operands. -/
theorem Instr.valid_of_wf {i : Instr} {o : FrameOperands} (h : i.frameOperands = some o) (hw : i.wf = true) : o.valid := by
  by_cases hv : i.view = .pattern
  · exact valid_of_pattern h hv
  · cases i <;> first | exact absurd rfl hv | cases h <;> exact Frame.valid_of_wf hw

end Sys2Proof

namespace Sys2Proof.Laws.WireLength

/-- The wire length of a well-formed instruction. -/
def Statement (i : Instr) : Prop :=
  i.wf = true → (encode i).length = match i.frameOperands with
    | some o => frameLen o.kind o.dc
    | none => 1

theorem of_frameRow {i : Instr} {o : FrameOperands} (h : i.frameOperands = some o) : Statement i := by
  intro hw
  rw [encode_frameRow h, FrameOperands.length_wire (Instr.valid_of_wf h hw)]
  simp [h]

theorem readResponse (id : Byte) (dc : Nat) (payload : List Byte) :
    Statement (.readResponse id dc payload) := of_frameRow rfl

theorem readRequest (id : Byte) (dc : Nat) (payload : List Byte) :
    Statement (.readRequest id dc payload) := of_frameRow rfl

theorem writeRequest (id : Byte) (dc : Nat) (payload : List Byte) :
    Statement (.writeRequest id dc payload) := of_frameRow rfl

theorem executeRequest (id : Byte) (dc : Nat) (payload : List Byte) :
    Statement (.executeRequest id dc payload) := of_frameRow rfl

theorem headerByte (kind : Kind) (dcm1 : BitVec 3) (idHi : BitVec 2) :
    Statement (.headerByte kind dcm1 idHi) := fun _ => rfl

theorem continuationByte (rest : BitVec 7) :
    Statement (.continuationByte rest) := fun _ => rfl

theorem readResponseDc1 (id p0 : Byte) :
    Statement (.readResponseDc1 id p0) := of_frameRow rfl

theorem readResponseDc2 (id p0 p1 : Byte) (pad : BitVec 6) :
    Statement (.readResponseDc2 id p0 p1 pad) := of_frameRow rfl

theorem readResponseDc3 (id p0 p1 p2 : Byte) (pad : BitVec 5) :
    Statement (.readResponseDc3 id p0 p1 p2 pad) := of_frameRow rfl

theorem readResponseDc4 (id p0 p1 p2 p3 : Byte) (pad : BitVec 4) :
    Statement (.readResponseDc4 id p0 p1 p2 p3 pad) := of_frameRow rfl

theorem readResponseDc5 (id p0 p1 p2 p3 p4 : Byte) (pad : BitVec 3) :
    Statement (.readResponseDc5 id p0 p1 p2 p3 p4 pad) := of_frameRow rfl

theorem readResponseDc6 (id p0 p1 p2 p3 p4 p5 : Byte) (pad : BitVec 2) :
    Statement (.readResponseDc6 id p0 p1 p2 p3 p4 p5 pad) := of_frameRow rfl

theorem readResponseDc7 (id p0 p1 p2 p3 p4 p5 p6 : Byte) (pad : BitVec 1) :
    Statement (.readResponseDc7 id p0 p1 p2 p3 p4 p5 p6 pad) := of_frameRow rfl

theorem readResponseDc8 (id p0 p1 p2 p3 p4 p5 p6 p7 : Byte) :
    Statement (.readResponseDc8 id p0 p1 p2 p3 p4 p5 p6 p7) := of_frameRow rfl

theorem readRequestDc1 (id : Byte) (z : BitVec 1) :
    Statement (.readRequestDc1 id z) := of_frameRow rfl

theorem readRequestDc2 (id : Byte) (z : BitVec 1) :
    Statement (.readRequestDc2 id z) := of_frameRow rfl

theorem readRequestDc3 (id : Byte) (z : BitVec 1) :
    Statement (.readRequestDc3 id z) := of_frameRow rfl

theorem readRequestDc4 (id : Byte) (z : BitVec 1) :
    Statement (.readRequestDc4 id z) := of_frameRow rfl

theorem readRequestDc5 (id : Byte) (z : BitVec 1) :
    Statement (.readRequestDc5 id z) := of_frameRow rfl

theorem readRequestDc6 (id : Byte) (z : BitVec 1) :
    Statement (.readRequestDc6 id z) := of_frameRow rfl

theorem readRequestDc7 (id : Byte) (z : BitVec 1) :
    Statement (.readRequestDc7 id z) := of_frameRow rfl

theorem readRequestDc8 (id : Byte) (z : BitVec 1) :
    Statement (.readRequestDc8 id z) := of_frameRow rfl

theorem writeRequestDc1 (id p0 : Byte) :
    Statement (.writeRequestDc1 id p0) := of_frameRow rfl

theorem writeRequestDc2 (id p0 p1 : Byte) (pad : BitVec 6) :
    Statement (.writeRequestDc2 id p0 p1 pad) := of_frameRow rfl

theorem writeRequestDc3 (id p0 p1 p2 : Byte) (pad : BitVec 5) :
    Statement (.writeRequestDc3 id p0 p1 p2 pad) := of_frameRow rfl

theorem writeRequestDc4 (id p0 p1 p2 p3 : Byte) (pad : BitVec 4) :
    Statement (.writeRequestDc4 id p0 p1 p2 p3 pad) := of_frameRow rfl

theorem writeRequestDc5 (id p0 p1 p2 p3 p4 : Byte) (pad : BitVec 3) :
    Statement (.writeRequestDc5 id p0 p1 p2 p3 p4 pad) := of_frameRow rfl

theorem writeRequestDc6 (id p0 p1 p2 p3 p4 p5 : Byte) (pad : BitVec 2) :
    Statement (.writeRequestDc6 id p0 p1 p2 p3 p4 p5 pad) := of_frameRow rfl

theorem writeRequestDc7 (id p0 p1 p2 p3 p4 p5 p6 : Byte) (pad : BitVec 1) :
    Statement (.writeRequestDc7 id p0 p1 p2 p3 p4 p5 p6 pad) := of_frameRow rfl

theorem writeRequestDc8 (id p0 p1 p2 p3 p4 p5 p6 p7 : Byte) :
    Statement (.writeRequestDc8 id p0 p1 p2 p3 p4 p5 p6 p7) := of_frameRow rfl

theorem executeRequestDc1 (id p0 : Byte) :
    Statement (.executeRequestDc1 id p0) := of_frameRow rfl

theorem executeRequestDc2 (id p0 p1 : Byte) (pad : BitVec 6) :
    Statement (.executeRequestDc2 id p0 p1 pad) := of_frameRow rfl

theorem executeRequestDc3 (id p0 p1 p2 : Byte) (pad : BitVec 5) :
    Statement (.executeRequestDc3 id p0 p1 p2 pad) := of_frameRow rfl

theorem executeRequestDc4 (id p0 p1 p2 p3 : Byte) (pad : BitVec 4) :
    Statement (.executeRequestDc4 id p0 p1 p2 p3 pad) := of_frameRow rfl

theorem executeRequestDc5 (id p0 p1 p2 p3 p4 : Byte) (pad : BitVec 3) :
    Statement (.executeRequestDc5 id p0 p1 p2 p3 p4 pad) := of_frameRow rfl

theorem executeRequestDc6 (id p0 p1 p2 p3 p4 p5 : Byte) (pad : BitVec 2) :
    Statement (.executeRequestDc6 id p0 p1 p2 p3 p4 p5 pad) := of_frameRow rfl

theorem executeRequestDc7 (id p0 p1 p2 p3 p4 p5 p6 : Byte) (pad : BitVec 1) :
    Statement (.executeRequestDc7 id p0 p1 p2 p3 p4 p5 p6 pad) := of_frameRow rfl

theorem executeRequestDc8 (id p0 p1 p2 p3 p4 p5 p6 p7 : Byte) :
    Statement (.executeRequestDc8 id p0 p1 p2 p3 p4 p5 p6 p7) := of_frameRow rfl

end Sys2Proof.Laws.WireLength
end

