-- ==== Sys2Proof/Tests/Slice0.lean ====
section
/-! SUPPORT. The model's own tests. Expected values are those of spec/95_test_vectors.md (S, E, K, V, A, M, X and P numbers)
or are read off the encodings of spec/30_encoding.md. The second half shows, for each statement with hypotheses, concrete
values that meet them together. -/

namespace Sys2Proof.Tests

open Sys2Proof.Machine

/-! ## Helpers -/

/-- The reset machine with agent `a` to move. -/
def machine (a : Agent) : State := { State.reset with agent := a }

/-- The reset machine with one input presented. -/
def presented (c : Input) : State := { State.reset with pending := [c] }

/-- A receiver whose first entries are `bs` and the rest zero. -/
def receiver (cnt : BitVec 4) (bs : List Byte) : RxState :=
  { cnt := cnt, buf := Vector.ofFn (fun i : Fin 11 => bs.getD i.val 0) }

/-- The reset machine with that receiver. -/
def collecting (cnt : BitVec 4) (bs : List Byte) : State := { State.reset with rx := receiver cnt bs }

/-- The wire bytes of S3. -/
def s3Wire : List Byte := [0xDC, 0x4A, 0x01, 0x11, 0x51, 0x2C, 0x78, 0x4D, 0x2F, 0x1B, 0x6F]

/-- The payload of S3. -/
def s3Payload : List Byte := [0x01, 0x23, 0x45, 0x67, 0x89, 0xAB, 0xCD, 0xEF]

/-- S1's operands. -/
def s1Operands : FrameOperands := ⟨.executeRequest, 237, 1, [0x43], 0⟩

/-- K4's operands, with A2's pad bits. -/
def a2Operands : FrameOperands := ⟨.writeRequest, 1, 2, [0xFF, 0xFF], 0x3F⟩

/-- A5's operands: a ReadRequest whose unused bit is 1. -/
def a5Operands : FrameOperands := ⟨.readRequest, 73, 4, [], 1⟩

/-! ## Well-formedness: each check refuses the term that breaks it -/

theorem test_wf_accepts_frame : (Instr.writeRequest 37 8 s3Payload).wf = true := by decide

theorem test_wf_accepts_read_request : (Instr.readRequest 73 4 []).wf = true := by decide

theorem test_wf_refuses_count_zero : (Instr.readRequest 5 0 []).wf = false := by decide

theorem test_wf_refuses_count_nine : (Instr.writeRequest 5 9 [0, 0, 0, 0, 0, 0, 0, 0, 0]).wf = false := by decide

theorem test_wf_refuses_short_payload : (Instr.readResponse 5 2 [0x11]).wf = false := by decide

theorem test_wf_refuses_long_payload : (Instr.executeRequest 5 2 [0x11, 0x22, 0x33]).wf = false := by decide

theorem test_wf_refuses_read_request_payload : (Instr.readRequest 5 3 [0x01, 0x02, 0x03]).wf = false := by decide

/-! ## Words written out bit by bit -/

/-- S1, the executeRequest kind row: `1 11 000 11`, `0 101101 0`, `0 1000011`. -/
theorem test_decode_execute_request :
    decodeAs .kind [0b11100011, 0b01011010, 0b01000011] = .ok (.executeRequest 237 1 [0x43], []) := by decide

/-- A9, the readRequest kind row: `1 01 011 01`, `0 001001 0`. -/
theorem test_decode_read_request : decodeAs .kind [0b10101101, 0b00010010] = .ok (.readRequest 73 4 [], []) := by decide

/-- E1, the readResponse kind row. -/
theorem test_decode_read_response :
    decodeAs .kind [0b10000000, 0b01010101, 0b00000001] = .ok (.readResponse 42 1 [0x81], []) := by decide

/-- S3, the writeRequest kind row, and the same bytes as a pattern row. -/
theorem test_decode_write_request : decodeAs .kind s3Wire = .ok (.writeRequest 37 8 s3Payload, []) ∧
    decodeAs .pattern s3Wire = .ok (.writeRequestDc8 37 0x01 0x23 0x45 0x67 0x89 0xAB 0xCD 0xEF, []) := by decide

/-- E1 to E4: ReadResponse.dc1 to dc4. -/
theorem test_decode_read_response_low :
    decodeAs .pattern [0x80, 0x55, 0x01] = .ok (.readResponseDc1 42 0x81, []) ∧
    decodeAs .pattern [0x84, 0x55, 0x01, 0x3F, 0x00] = .ok (.readResponseDc2 42 0x81 0x7E 0, []) ∧
    decodeAs .pattern [0x88, 0x55, 0x01, 0x3F, 0x30, 0x60] = .ok (.readResponseDc3 42 0x81 0x7E 0xC3 0, []) ∧
    decodeAs .pattern [0x8C, 0x55, 0x01, 0x3F, 0x30, 0x67, 0x40] = .ok (.readResponseDc4 42 0x81 0x7E 0xC3 0x3C 0, []) := by
  decide

/-- E5 to E8: ReadResponse.dc5 to dc8. -/
theorem test_decode_read_response_high :
    decodeAs .pattern [0x90, 0x55, 0x01, 0x3F, 0x30, 0x67, 0x4A, 0x28] =
      .ok (.readResponseDc5 42 0x81 0x7E 0xC3 0x3C 0xA5 0, []) ∧
    decodeAs .pattern [0x94, 0x55, 0x01, 0x3F, 0x30, 0x67, 0x4A, 0x2A, 0x68] =
      .ok (.readResponseDc6 42 0x81 0x7E 0xC3 0x3C 0xA5 0x5A 0, []) ∧
    decodeAs .pattern [0x98, 0x55, 0x01, 0x3F, 0x30, 0x67, 0x4A, 0x2A, 0x6B, 0x60] =
      .ok (.readResponseDc7 42 0x81 0x7E 0xC3 0x3C 0xA5 0x5A 0xF0 0, []) ∧
    decodeAs .pattern [0x9C, 0x55, 0x01, 0x3F, 0x30, 0x67, 0x4A, 0x2A, 0x6B, 0x60, 0x0F] =
      .ok (.readResponseDc8 42 0x81 0x7E 0xC3 0x3C 0xA5 0x5A 0xF0 0x0F, []) := by
  decide

/-- E25 to E32: ReadRequest.dc1 to dc8; A5 for the unused bit. -/
theorem test_decode_read_request_rows :
    decodeAs .pattern [0xA1, 0x12] = .ok (.readRequestDc1 73 0, []) ∧
    decodeAs .pattern [0xA5, 0x12] = .ok (.readRequestDc2 73 0, []) ∧
    decodeAs .pattern [0xA9, 0x12] = .ok (.readRequestDc3 73 0, []) ∧
    decodeAs .pattern [0xAD, 0x13] = .ok (.readRequestDc4 73 1, []) ∧
    decodeAs .pattern [0xB1, 0x12] = .ok (.readRequestDc5 73 0, []) ∧
    decodeAs .pattern [0xB5, 0x12] = .ok (.readRequestDc6 73 0, []) ∧
    decodeAs .pattern [0xB9, 0x12] = .ok (.readRequestDc7 73 0, []) ∧
    decodeAs .pattern [0xBD, 0x12] = .ok (.readRequestDc8 73 0, []) := by decide

/-- E9, A2, K5 and K6: WriteRequest.dc1 to dc4, with the pad bits of A2. -/
theorem test_decode_write_request_low :
    decodeAs .pattern [0xC2, 0x2B, 0x01] = .ok (.writeRequestDc1 149 0x81, []) ∧
    decodeAs .pattern [0xC4, 0x03, 0x7F, 0x7F, 0x7F] = .ok (.writeRequestDc2 1 0xFF 0xFF 0x3F, []) ∧
    decodeAs .pattern [0xC8, 0x03, 0x7F, 0x7F, 0x7F, 0x60] = .ok (.writeRequestDc3 1 0xFF 0xFF 0xFF 0, []) ∧
    decodeAs .pattern [0xCC, 0x03, 0x7F, 0x7F, 0x7F, 0x7F, 0x70] = .ok (.writeRequestDc4 1 0xFF 0xFF 0xFF 0xFF 0, []) := by
  decide

/-- K7, K8 and A4: WriteRequest.dc5 to dc7, with the pad bit of A4. -/
theorem test_decode_write_request_high :
    decodeAs .pattern [0xD0, 0x03, 0x7F, 0x7F, 0x7F, 0x7F, 0x7F, 0x78] =
      .ok (.writeRequestDc5 1 0xFF 0xFF 0xFF 0xFF 0xFF 0, []) ∧
    decodeAs .pattern [0xD4, 0x03, 0x7F, 0x7F, 0x7F, 0x7F, 0x7F, 0x7F, 0x7C] =
      .ok (.writeRequestDc6 1 0xFF 0xFF 0xFF 0xFF 0xFF 0xFF 0, []) ∧
    decodeAs .pattern [0xD8, 0x02, 0, 0, 0, 0, 0, 0, 0, 0x01] = .ok (.writeRequestDc7 1 0 0 0 0 0 0 0 1, []) := by
  decide

/-- K10, E18 to E20: ExecuteRequest.dc1 to dc4. -/
theorem test_decode_execute_request_low :
    decodeAs .pattern [0xE0, 0x01, 0x00] = .ok (.executeRequestDc1 0 0x80, []) ∧
    decodeAs .pattern [0xE7, 0x5B, 0x01, 0x3F, 0x00] = .ok (.executeRequestDc2 237 0x81 0x7E 0, []) ∧
    decodeAs .pattern [0xEB, 0x5B, 0x01, 0x3F, 0x30, 0x60] = .ok (.executeRequestDc3 237 0x81 0x7E 0xC3 0, []) ∧
    decodeAs .pattern [0xEF, 0x5B, 0x01, 0x3F, 0x30, 0x67, 0x40] =
      .ok (.executeRequestDc4 237 0x81 0x7E 0xC3 0x3C 0, []) := by decide

/-- E21 to E24: ExecuteRequest.dc5 to dc8. -/
theorem test_decode_execute_request_high :
    decodeAs .pattern [0xF3, 0x5B, 0x01, 0x3F, 0x30, 0x67, 0x4A, 0x28] =
      .ok (.executeRequestDc5 237 0x81 0x7E 0xC3 0x3C 0xA5 0, []) ∧
    decodeAs .pattern [0xF7, 0x5B, 0x01, 0x3F, 0x30, 0x67, 0x4A, 0x2A, 0x68] =
      .ok (.executeRequestDc6 237 0x81 0x7E 0xC3 0x3C 0xA5 0x5A 0, []) ∧
    decodeAs .pattern [0xFB, 0x5B, 0x01, 0x3F, 0x30, 0x67, 0x4A, 0x2A, 0x6B, 0x60] =
      .ok (.executeRequestDc7 237 0x81 0x7E 0xC3 0x3C 0xA5 0x5A 0xF0 0, []) ∧
    decodeAs .pattern [0xFF, 0x5B, 0x01, 0x3F, 0x30, 0x67, 0x4A, 0x2A, 0x6B, 0x60, 0x0F] =
      .ok (.executeRequestDc8 237 0x81 0x7E 0xC3 0x3C 0xA5 0x5A 0xF0 0x0F, []) := by decide

/-- B1 as a header byte is `1 01 100 01` (95 1.1, S2); 12 as a continuation byte. -/
theorem test_decode_byte_classes : decodeAs .byte [0b10110001] = .ok (.headerByte .readRequest 0b100 0b01, []) ∧
    decodeAs .byte [0b00010010] = .ok (.continuationByte 0b0010010, []) := by decide

/-- The decoder refuses by name: no marker (M3), a marked second byte (M4), too few bytes for the pattern (M6), none (M1). -/
theorem test_decode_refuses : decodeAs .pattern [0x63, 0x5A, 0x43] = .err (.header 0x63) ∧
    decodeAs .pattern [0xE3, 0xDA, 0x43] = .err (.marker 1) ∧ decodeAs .pattern [0xE3, 0x5A] = .err (.length 2 3) ∧
    decodeAs .byte [] = .err (.short 0) := by decide

/-! ## ENCODE -/

/-- S1, S3, K2 and K20. -/
theorem test_encode_words : encodeFrame .executeRequest 237 1 [0x43] = .ok [0xE3, 0x5A, 0x43] ∧
    encodeFrame .writeRequest 37 8 s3Payload = .ok s3Wire ∧ encodeFrame .writeRequest 255 1 [0xFF] = .ok [0xC3, 0x7F, 0x7F] ∧
    encodeFrame .readRequest 255 8 [] = .ok [0xBF, 0x7E] := by decide

/-- 95 2.7, payload bits 15, 42 and 63. -/
theorem test_encode_single_bits :
    encodeFrame .writeRequest 0 8 [0, 0x01, 0, 0, 0, 0, 0, 0] = .ok [0xDC, 0, 0, 0, 0x40, 0, 0, 0, 0, 0, 0] ∧
    encodeFrame .writeRequest 0 8 [0, 0, 0, 0, 0, 0x20, 0, 0] = .ok [0xDC, 0, 0, 0, 0, 0, 0, 0x01, 0, 0, 0] ∧
    encodeFrame .writeRequest 0 8 [0, 0, 0, 0, 0, 0, 0, 0x01] = .ok [0xDC, 0, 0, 0, 0, 0, 0, 0, 0, 0, 0x01] := by decide

/-- V1, V6, V8 and V10 (K21): DC_RANGE first, then PAYLOAD_LENGTH, and a ReadRequest's payload is not examined. -/
theorem test_encode_errors : encodeFrame .writeRequest 5 0 [] = .err (.dcRange 0) ∧
    encodeFrame .readResponse 5 2 [0x11, 0x22, 0x33] = .err (.payloadLength 3 2) ∧
    encodeFrame .writeRequest 5 0 [0x11] = .err (.dcRange 0) ∧
    encodeFrame .readRequest 5 3 [0x01, 0x02] = .ok [0xA8, 0x0A] := by decide

/-- R170's numbers. -/
theorem test_error_codes : validationClass = 1 ∧ malformedClass = 2 ∧ validationReason (.dcRange 0) = 1 ∧
    validationReason (.payloadLength 1 2) = 2 ∧ malformedReason (.short 0) = 1 ∧ malformedReason (.header 0) = 2 ∧
    malformedReason (.marker 1) = 3 ∧ malformedReason (.length 2 3) = 4 := by decide

/-! ## DECODE -/

/-- A2, A4, A6, A7 and A8. -/
theorem test_decode_accepts : decodeFrame [0xC4, 0x03, 0x7F, 0x7F, 0x7F] = .ok ⟨.writeRequest, 1, 2, [0xFF, 0xFF]⟩ ∧
    decodeFrame [0xD8, 0x02, 0, 0, 0, 0, 0, 0, 0, 0x01] = .ok ⟨.writeRequest, 1, 7, [0, 0, 0, 0, 0, 0, 0]⟩ ∧
    decodeFrame [0xAD, 0x12, 0x55, 0x66] = .ok ⟨.readRequest, 73, 4, []⟩ ∧
    decodeFrame [0xAD, 0x12, 0xFF] = .ok ⟨.readRequest, 73, 4, []⟩ ∧
    decodeFrame [0xB1, 0x12] = .ok ⟨.readRequest, 73, 5, []⟩ := by decide

/-- M2, M5, M7, M11, M12 and M13. -/
theorem test_decode_errors : decodeFrame [0xE3] = .err (.short 1) ∧ decodeFrame [0xAD, 0x92] = .err (.marker 1) ∧
    decodeFrame [0xE3, 0x5A, 0x43, 0x00] = .err (.length 4 3) ∧
    decodeFrame [0xDC, 0x4A, 0x01, 0x11, 0xD1, 0x2C, 0x78, 0x4D, 0x2F, 0x1B, 0x6F] = .err (.marker 4) ∧
    decodeFrame [0xE3, 0x5A, 0x43, 0x80] = .err (.length 4 3) ∧ decodeFrame [0x63, 0x5A] = .err (.header 0x63) := by decide

/-- The other value of RR_STRICT_LENGTH (D22): A6 is then a LENGTH error. -/
theorem test_strict_length : decodeFrameWith true [0xAD, 0x12, 0x55, 0x66] = .err (.length 4 2) := by decide

/-! ## The receiver, one step -/

/-- X3: HEADER_BYTE from AwaitHeader. -/
theorem test_header_byte_starts : (rxByte (receiver 0 []) 0x80).1.cnt = 1 ∧ (rxByte (receiver 0 []) 0x80).2 = none := by
  decide

/-- X12: HEADER_BYTE abandons ten collected bytes. -/
theorem test_header_byte_aborts : rxByte (receiver 10 s3Wire) 0x80 = (receiver 1 (0x80 :: s3Wire.tail), none) ∧
    rxDrop (receiver 10 s3Wire) 0x80 = some .abortByHeader := by decide

/-- X11: the eleventh byte completes S3. -/
theorem test_continuation_byte_completes :
    rxByte (receiver 10 (s3Wire.take 10)) 0x6F = (receiver 0 s3Wire, some ⟨.writeRequest, 37, 8, s3Payload⟩) := by decide

/-- X16: the overflow guard, at `cnt = 11`. -/
theorem test_continuation_byte_overflows : rxByte (receiver 11 [0xDC]) 0x00 = (receiver 0 [0xDC], none) ∧
    rxDrop (receiver 11 [0xDC]) 0x00 = some .overflowDrop := by decide

/-- P1: garbage, then S1. -/
theorem test_garbage_then_frame :
    (rxRun RxState.reset [0x00, 0x7F, 0x12, 0xE3, 0x5A, 0x43]).2 = [⟨.executeRequest, 237, 1, [0x43]⟩] := by decide

/-- P5: a truncated frame completed by foreign bytes. -/
theorem test_foreign_bytes_complete :
    (rxRun RxState.reset [0xC4, 0x03, 0x7F, 0x55, 0x2A]).2 = [⟨.writeRequest, 1, 2, [0xFF, 0xAA]⟩] := by decide

/-! ## The table's words and the step -/

/-- A kind word (16 bits, `w[0]` in the high byte), a pattern word, a continuation word. -/
theorem test_table_words : decodeTableWord 16 0xA000 = some (.readRequest 0 1 []) ∧
    decodeTableWord 16 0xC000 = some (.writeRequest 0 1 [0]) ∧
    decodeTableWord 8 0xDC = some (.writeRequestDc8 0 0 0 0 0 0 0 0 0) ∧
    decodeTableWord 8 0x12 = some (.continuationByte 0x12) := by decide

/-- The step after reset with a kind word presented is that row's ENCODE (K19). -/
theorem test_step_runs_kind_word :
    step (State.reset.withFetchWord 16 0xA000) = .next { machine .tx with encoded := [.ok [0xA0, 0x00]] } := by rfl

/-- The step after reset with a pattern word presented is the reception of that frame. -/
theorem test_step_runs_pattern_word : step (State.reset.withFetchWord 8 0xE0) =
    .next { collecting 0 [0xE0] with emitted := [⟨.executeRequest, 0, 1, [0]⟩] } := by rfl

/-- An ENCODE call with a rejected operand answers its error and goes on (V2). -/
theorem test_step_answers_error : step (presented (.encode .writeRequest 5 9 [])) =
    .next { machine .tx with encoded := [.err (.dcRange 9)] } := by rfl

/-- RESET (R190) empties the counter and takes eleven free values. -/
theorem test_step_reset : step { collecting 7 s3Wire with pending := [.reset] } =
    .next { State.reset with rx := { cnt := 0, buf := freeBuf 0 }, fresh := 11 } := by rfl

/-! ## Each statement's hypotheses can be met -/

theorem witness_DecodeOfEncodeIsIdentity : (Instr.writeRequestDc2 1 0xFF 0xFF 0x3F).wf = true ∧
    (Instr.readResponse 42 1 [0x81]).wf = true ∧ (Instr.headerByte .readRequest 4 1).wf = true := by decide

theorem witness_EncodeOfDecodeKeepsEveryBit : View.pattern ≠ .kind ∧ View.byte ≠ .kind ∧
    decodeAs .pattern [0xC4, 0x03, 0x7F, 0x7F, 0x7F, 0x55] = .ok (.writeRequestDc2 1 0xFF 0xFF 0x3F, [0x55]) ∧
    decodeAs .byte [0x55, 0x80] = .ok (.continuationByte 0x55, [0x80]) := by decide

theorem witness_FrameRowMatchesTable : (Instr.writeRequestDc2 1 0xFF 0xFF 0x3F).frameOperands = some a2Operands ∧
    a2Operands.valid ∧ (Instr.readRequestDc4 73 1).frameOperands = some a5Operands ∧ a5Operands.valid ∧
    (Instr.executeRequest 237 1 [0x43]).frameOperands = some s1Operands ∧ s1Operands.valid := by decide

theorem witness_EncodeRejectsDataCount : (machine .tx).agent = .tx ∧ (0 < 1 ∨ 8 < 0) ∧ (9 < 1 ∨ 8 < 9) := by decide

theorem witness_EncodeChecksPayloadLength : (machine .tx).agent = .tx ∧ 1 ≤ 1 ∧ 8 ≤ 8 ∧
    Kind.writeRequest ≠ .readRequest ∧ ([] : List Byte).length ≠ 1 ∧ ([0x11] : List Byte).length ≠ 8 ∧
    Kind.readRequest = .readRequest := by decide

/-- Both kinds of row, and the boundaries of the bit clause: the first payload bit, the last, and the last pad bit. -/
theorem witness_EncodePlacesEveryBit : (Instr.writeRequestDc2 1 0xFF 0xFF 0x3F).frameOperands = some a2Operands ∧
    a2Operands.valid ∧ a2Operands.kind ≠ .readRequest ∧ (machine .tx).agent = .tx ∧
    (Instr.readRequestDc4 73 1).frameOperands = some a5Operands ∧ a5Operands.valid ∧ a5Operands.kind = .readRequest ∧
    encodeFrame .writeRequest 1 2 [0xFF, 0xFF] = .ok [0xC4, 0x03, 0x7F, 0x7F, 0x40] ∧
    1 + (0 + 6) / 7 < 5 ∧ 0 < 8 * 2 ∧ 1 + (15 + 6) / 7 < 5 ∧ 15 < 8 * 2 ∧ 1 + (21 + 6) / 7 < 5 ∧ ¬ 21 < 8 * 2 := by decide

/-- Two encodings that differ in nothing but a ReadRequest's payload, and one with pad bits. -/
theorem witness_EncodeLaws : encodeFrame .readRequest 73 4 [] = .ok [0xAD, 0x12] ∧
    encodeFrame .readRequest 73 4 [0xDE, 0xAD, 0xBE, 0xEF] = .ok [0xAD, 0x12] ∧
    encodeFrame .writeRequest 1 2 [0xFF, 0xFF] = .ok [0xC4, 0x03, 0x7F, 0x7F, 0x40] ∧ 5 < ignoredBits .writeRequest 2 ∧
    0 < ignoredBits .readRequest 4 := by decide

/-- One call for each row of R108: M1, M3, M4, A9, M6, M11, S1. -/
theorem witness_DecodeCallAnswersFirstMatch :
    (∀ bs ∈ [[], [0x63, 0x5A, 0x43], [0xE3, 0xDA, 0x43], [0xAD, 0x12], [0xE3, 0x5A], [0xE3, 0x5A, 0x80], [0xE3, 0x5A, 0x43]],
      (presented (.decode bs)).pending = .decode bs :: []) ∧
    decodeFrame [0xE3, 0x5A, 0x80] = .err (.marker 2) ∧ decodeFrame [0xE3, 0x5A, 0x43] = .ok ⟨.executeRequest, 237, 1, [0x43]⟩ := by
  decide

theorem witness_DecodedPayloadBits : decodeFrame s3Wire = .ok ⟨.writeRequest, 37, 8, s3Payload⟩ ∧
    Kind.writeRequest ≠ .readRequest ∧ 63 < 8 * 8 := by decide

theorem witness_DecodeInvertsEncode : 1 ≤ 8 ∧ 8 ≤ 8 ∧ s3Payload.length = 8 ∧ ([0x43] : List Byte).length = 1 := by decide

theorem witness_DecodeReturnsTheFrame : (Instr.writeRequestDc2 1 0xFF 0xFF 0x3F).frameOperands = some a2Operands ∧
    a2Operands.valid ∧ (machine .dec).agent = .dec := by decide

theorem witness_ReencodeClearsIgnoredBits : decodeFrame [0xC4, 0x03, 0x7F, 0x7F, 0x7F] = .ok ⟨.writeRequest, 1, 2, [0xFF, 0xFF]⟩ ∧
    decodeFrame [0xAD, 0x13, 0xFF] = .ok ⟨.readRequest, 73, 4, []⟩ ∧
    decodeFrame [0xAD, 0x12] = .ok ⟨.readRequest, 73, 4, []⟩ ∧ encodeFrame .readRequest 73 4 [1] = .ok [0xAD, 0x12] := by decide

theorem witness_HelperCallsAnswer : (presented (.isHeader 0x80)).pending = .isHeader 0x80 :: [] ∧
    (presented (.frameLen .readRequest 7)).pending = .frameLen .readRequest 7 :: [] ∧
    (presented (.frameLenH 0xFF)).pending = .frameLenH 0xFF :: [] := by decide

theorem witness_UnsynchronizedByteDiscarded : (collecting 0 s3Wire).rx.cnt = 0 := by decide

theorem witness_OverflowDropsPartialFrame : 11 ≤ (collecting 11 s3Wire).rx.cnt.toNat ∧
    11 ≤ (collecting 15 s3Wire).rx.cnt.toNat := by decide

theorem witness_ContinuationByteStored : 1 ≤ (collecting 1 [0xE3]).rx.cnt.toNat ∧ (collecting 1 [0xE3]).rx.cnt.toNat ≤ 10 ∧
    (collecting 1 [0xE3]).rx.cnt.toNat + 1 ≠ (collecting 1 [0xE3]).rx.expectedLen ∧
    (collecting 10 [0xE3]).rx.cnt.toNat ≤ 10 ∧
    (collecting 10 [0xE3]).rx.cnt.toNat + 1 ≠ (collecting 10 [0xE3]).rx.expectedLen := by decide

theorem witness_LastByteEmitsTheFrame : (collecting 1 [0xAD]).rx.Inv ∧ 1 ≤ (collecting 1 [0xAD]).rx.cnt.toNat ∧
    (collecting 1 [0xAD]).rx.cnt.toNat + 1 = (collecting 1 [0xAD]).rx.expectedLen ∧
    (collecting 10 s3Wire).rx.Inv ∧ (collecting 10 s3Wire).rx.cnt.toNat + 1 = (collecting 10 s3Wire).rx.expectedLen := by
  decide

/-- An unreachable receiver whose entry 1 is marked. -/
theorem witness_RejectedFrameSwallowed : 1 ≤ (collecting 2 [0xE3, 0xDA]).rx.cnt.toNat ∧
    (collecting 2 [0xE3, 0xDA]).rx.cnt.toNat ≤ 10 ∧
    (collecting 2 [0xE3, 0xDA]).rx.cnt.toNat + 1 = (collecting 2 [0xE3, 0xDA]).rx.expectedLen ∧
    decodeFrame ((collecting 2 [0xE3, 0xDA]).rx.contents 2 ++ [(0x43 : BitVec 7).setWidth 8]) = .err (.marker 1) := by decide

/-- One receiver and byte for each of the four drops. -/
theorem witness_DropsLeaveTheStatedState : rxDrop (receiver 0 []) 0x12 = some .discardUnsync ∧
    rxDrop (receiver 1 [0xE3]) 0x80 = some .abortByHeader ∧ rxDrop (receiver 11 []) 0x7F = some .overflowDrop ∧
    rxDrop (receiver 2 [0xE3, 0xDA]) 0x43 = some .swallowed := by decide

theorem witness_OverflowAndSwallowNeverHappen : (receiver 10 s3Wire).Inv := by decide

theorem witness_CollectedBytesAreTheLastConsumed : (receiver 2 [0xE3, 0x5A]).Tracks [0x12, 0xE3, 0x5A] := by decide

theorem witness_EmittedFrameIsTheLastBytes : (receiver 2 [0xE3, 0x5A]).Inv ∧
    (receiver 2 [0xE3, 0x5A]).Tracks [0x12, 0xE3, 0x5A] ∧
    (rxByte (receiver 2 [0xE3, 0x5A]) 0x43).2 = some ⟨.executeRequest, 237, 1, [0x43]⟩ := by decide

theorem witness_StaleEntriesAreUnobservable : (receiver 1 [0xE3, 0x11]).SameLive (receiver 1 [0xE3, 0x22]) ∧
    receiver 1 [0xE3, 0x11] ≠ receiver 1 [0xE3, 0x22] := by decide

theorem witness_FramesAtMostHalfTheBytes : (receiver 0 s3Wire).cnt = 0 := by decide

theorem witness_ReceptionEmitsTheFrame : (Instr.writeRequestDc2 1 0xFF 0xFF 0x3F).frameOperands = some a2Operands ∧
    a2Operands.valid ∧ (machine .rx).agent = .rx := by decide

theorem witness_EncodedFrameResynchronizes : encodeFrame .executeRequest 237 1 [0x43] = .ok [0xE3, 0x5A, 0x43] ∧
    (rxRun RxState.reset [0x12, 0xDC, 0x4A]).2 = [] := by decide

theorem witness_HeaderByteSynchronizes : isHeader 0x80 = true := by decide

theorem witness_ShapedBytesAreReceived : WireShaped [0xA0, 0x7F] := by decide

theorem witness_TruncatedFrameAbandoned : a2Operands.valid ∧ s1Operands.valid ∧ 1 ≤ 1 ∧ 1 < a2Operands.wire.length ∧
    4 < a2Operands.wire.length := by decide

theorem witness_BackToBackFramesInOrder : (∀ x ∈ [(a5Operands, [0x11, 0x22]), (s1Operands, ([] : List Byte))],
      x.1.valid ∧ ∀ b ∈ x.2, isHeader b = false) ∧
    [(a5Operands, [0x11, 0x22]), (s1Operands, ([] : List Byte))] ≠ [] := by decide

theorem witness_UnencodableFrameHasNoWire :
    (Instr.writeRequest 5 0 []).frameOperands = some ⟨.writeRequest, 5, 0, [], 0⟩ ∧
    encodeFrame .writeRequest 5 0 [] = .err (.dcRange 0) ∧ (machine .rx).agent = .rx ∧ (machine .dec).agent = .dec := by decide

theorem witness_StepRunsTheFetchedInstruction : (presented (.rxByte 0x80)).pending = .rxByte 0x80 :: [] ∧
    fetch (.rxByte 0x80) = some (.headerByte .readResponse 0 0) := by decide

theorem witness_FetchReadsTheWire : encode (.continuationByte 0x12) = [0x12] ∧ (Instr.continuationByte 0x12).view = .byte ∧
    (Instr.readRequestDc4 73 1).view = .pattern ∧ encode (.readRequestDc4 73 1) = [0xAD, 0x13] := by decide

theorem witness_StepPerformsTheOperation : (presented (.rxRun s3Wire)).pending = .rxRun s3Wire :: [] := by decide

theorem witness_ResetForgetsThePartialFrame : (presented .reset).pending = .reset :: [] ∧
    (∀ b ∈ [(0x12 : Byte), 0x7F], isHeader b = false) := by decide

theorem witness_AgentsShareNoState : (presented (.isHeader 0x80)).pending = .isHeader 0x80 :: [] ∧
    (Input.isHeader 0x80).toReceiver = false ∧
    step (presented (.isHeader 0x80)) = .next { State.reset with helpers := [.isHeader true] } ∧
    (presented (.rxByte 0x12)).pending = .rxByte 0x12 :: [] ∧ (Input.rxByte 0x12).toReceiver = true ∧
    step (presented (.rxByte 0x12)) = .next State.reset :=
  ⟨rfl, rfl, rfl, rfl, rfl, rfl⟩

theorem witness_StepsOfDifferentAgentsCommute : (Input.rxByte 0x12).agent ≠ (Input.decode []).agent := by decide

theorem witness_HandedOutResultsStand : step (presented (.decode [])) =
    .next { machine .dec with decoded := [.err (.short 0)] } := by rfl

theorem witness_EveryStepAnswers : State.reset.pending = [] := by decide

theorem witness_StepKeepsTheInvariant : (collecting 1 [0xE3]).Inv ∧ step (collecting 1 [0xE3]) = .next (collecting 1 [0xE3]) := by
  refine ⟨⟨by decide, by decide, ?_, ?_⟩, rfl⟩ <;> exact fun r h => nomatch h

end Sys2Proof.Tests
end

/-! PROOFS. What one step of the machine does, once for every input, and what belongs to which agent (spec/00_scope.md R5):
the scope statements O40, O41 and O43. -/

namespace Sys2Proof

/-- A byte list that is exactly one frame brings a frame row. -/
theorem frameOperands_of_wholePattern {bs : List Byte} {i : Instr} (h : wholePattern bs = some i) :
    ∃ o, i.frameOperands = some o := by
  simp only [wholePattern, decodeAs] at h
  split at h
  · rename_i hd
    split at hd
    · cases hd
    · rename_i f last _ _
      cases hd; cases h
      exact (Machine.frameOperands_ofPattern f last).imp fun _ ho => ho.1
  · cases h

/-- The bytes a step handles when `bs` is presented: those of the pattern row `bs` is read as, or else `bs` itself. -/
def rereadBytes (bs : List Byte) : List Byte :=
  match wholePattern bs with
  | some i => encode i
  | none => bs

namespace Machine

/-! ## One step -/

/-- The operation a step performs for an input, its bytes read back from the pattern row they may bring. -/
def Input.reread : Input → Input
  | .rxRun bs => .rxRun (rereadBytes bs)
  | .decode bs => .decode (rereadBytes bs)
  | c => c

@[simp] theorem Input.reread_agent (c : Input) : c.reread.agent = c.agent := by cases c <;> rfl

theorem step_of_waiting {s : State} (h : s.pending = []) : step s = .next s := by simp [step, h]

/-- A step with an input presented takes it and performs its operation: the row an input brings, where it brings one, means
what the input's agent does with the bytes of the row. -/
theorem step_of_pending {s : State} {c : Input} {later : List Input} (h : s.pending = c :: later) :
    step s = .next (perform c.reread (s.take c later)) := by
  simp only [step, h]
  cases c with
  | rxByte b => simp [fetch, exec_decodeByte, Input.reread, perform, State.receive_single]
  | rxRun bs =>
    cases hw : wholePattern bs with
    | none => simp [fetch, hw, Input.reread, rereadBytes]
    | some i =>
      obtain ⟨o, ho⟩ := frameOperands_of_wholePattern hw
      simp [fetch, hw, Input.reread, rereadBytes, perform, exec_frameRow _ ho, encode_frameRow ho,
        State.frameStep_rx o (s.take_agent (.rxRun bs) later)]
  | encode kind id dc payload =>
    simp [fetch, exec_frameRow _ (frameOperands_ofFrame _), Input.reread, perform,
      State.frameStep_tx _ (s.take_agent (.encode kind id dc payload) later)]
  | decode bs =>
    cases hw : wholePattern bs with
    | none => simp [fetch, hw, Input.reread, rereadBytes]
    | some i =>
      obtain ⟨o, ho⟩ := frameOperands_of_wholePattern hw
      simp [fetch, hw, Input.reread, rereadBytes, perform, exec_frameRow _ ho, encode_frameRow ho,
        State.frameStep_dec o (s.take_agent (.decode bs) later)]
  | isHeader | frameLen | frameLenH | reset => rfl

@[simp] theorem perform_pending (c : Input) (s : State) : (perform c s).pending = s.pending := by cases c <;> rfl

/-! ## What belongs to an agent -/

/-- The part of the state that belongs to an agent, or to the helper functions (`none`): its own fields, every other field
as right after reset (R5). -/
def State.part (s : State) : Option Agent → State
  | some .tx => { State.reset with encoded := s.encoded }
  | some .dec => { State.reset with decoded := s.decoded }
  | some .rx => { State.reset with rx := s.rx, emitted := s.emitted, fresh := s.fresh }
  | none => { State.reset with helpers := s.helpers }

@[simp] theorem State.part_take (s : State) (c : Input) (rest : List Input) (a : Option Agent) :
    (s.take c rest).part a = s.part a := by
  rcases a with _ | _ | _ | _ <;> rfl

theorem State.part_none_eq {s t : State} : s.part none = t.part none ↔ s.helpers = t.helpers := by simp [State.part]

theorem State.part_tx_eq {s t : State} : s.part (some .tx) = t.part (some .tx) ↔ s.encoded = t.encoded := by
  simp [State.part]

theorem State.part_dec_eq {s t : State} : s.part (some .dec) = t.part (some .dec) ↔ s.decoded = t.decoded := by
  simp [State.part]

theorem State.part_rx_eq {s t : State} :
    s.part (some .rx) = t.part (some .rx) ↔ s.rx = t.rx ∧ s.emitted = t.emitted ∧ s.fresh = t.fresh := by
  simp [State.part]

/-- With the inputs still presented, the parts are the whole state, up to which agent moved last. -/
theorem State.eq_of_parts {s t : State} (hp : s.pending = t.pending) (h : ∀ a, s.part a = t.part a) :
    { s with agent := .rx } = { t with agent := .rx } := by
  obtain ⟨hrx, hemitted, hfresh⟩ := State.part_rx_eq.mp (h (some .rx))
  rw [hp, hrx, hemitted, hfresh, State.part_tx_eq.mp (h (some .tx)), State.part_dec_eq.mp (h (some .dec)),
    State.part_none_eq.mp (h none)]

/-- An operation leaves alone what belongs to others (R5). -/
theorem part_perform_other {c : Input} {a : Option Agent} (s : State) (h : c.agent ≠ a) :
    (perform c s).part a = s.part a := by
  cases c with
  | encode => rcases a with _ | _ | _ | _; exacts [rfl, absurd rfl h, rfl, rfl]
  | decode => rcases a with _ | _ | _ | _; exacts [rfl, rfl, absurd rfl h, rfl]
  | rxByte | rxRun | reset => rcases a with _ | _ | _ | _; exacts [rfl, rfl, rfl, absurd rfl h]
  | isHeader | frameLen | frameLenH => rcases a with _ | _ | _ | _; exacts [absurd rfl h, rfl, rfl, rfl]

/-- What an operation makes of its own agent's part depends on that part alone. -/
theorem part_perform_own (c : Input) (s : State) :
    (perform c s).part c.agent = (perform c (s.part c.agent)).part c.agent := by
  cases c <;> rfl

/-- An operation makes equal parts of equal parts. -/
theorem part_perform_congr {s t : State} (c : Input) (h : ∀ a, s.part a = t.part a) (a : Option Agent) :
    (perform c s).part a = (perform c t).part a := by
  by_cases ha : c.agent = a
  · rw [← ha, part_perform_own, h, ← part_perform_own]
  · rw [part_perform_other s ha, part_perform_other t ha, h]

/-- Operations of different agents commute, part by part. -/
theorem part_perform_comm {c d : Input} (s : State) (h : c.agent ≠ d.agent) (a : Option Agent) :
    (perform d (perform c s)).part a = (perform c (perform d s)).part a := by
  by_cases hc : c.agent = a
  · subst hc
    rw [part_perform_other _ h.symm, part_perform_own c (perform d s), part_perform_other _ h.symm, ← part_perform_own]
  · rw [part_perform_other _ hc]
    by_cases hd : d.agent = a
    · subst hd
      rw [part_perform_own, part_perform_other _ h, ← part_perform_own]
    · rw [part_perform_other _ hd, part_perform_other _ hd, part_perform_other _ hc]

/-- Taking the inputs does not show in the parts two operations leave. -/
theorem part_perform_take_twice (s : State) (c d c' d' : Input) (rest later : List Input) (a : Option Agent) :
    (perform d ((perform c (s.take c' rest)).take d' later)).part a = (perform d (perform c s)).part a :=
  part_perform_congr d (fun b => (State.part_take ..).trans (part_perform_congr c (s.part_take c' rest) b)) a

/-! ## The scope statements -/

/-- Settles O41: each part of the state is written by at most one of the two operations, from that part alone. -/
theorem stepsOfDifferentAgentsCommute : Obligations.StepsOfDifferentAgentsCommute := by
  intro s c d later h
  have hcd : c.reread.agent ≠ d.reread.agent := by simpa using h
  refine ⟨_, _, _, _, step_of_pending rfl, step_of_pending (c := d) (later := later) (by simp),
    step_of_pending rfl, step_of_pending (c := c) (later := later) (by simp), State.eq_of_parts (by simp) fun a => ?_⟩
  exact (part_perform_take_twice s ..).trans
    ((part_perform_comm s hcd a).trans (part_perform_take_twice s ..).symm)

/-- Settles O43, by whether an input is presented. -/
theorem everyStepAnswers : Obligations.EveryStepAnswers := by
  intro s
  cases h : s.pending with
  | nil => exact ⟨s, step_of_waiting h, by simp [h], fun _ => rfl⟩
  | cons c later => exact ⟨_, step_of_pending h, by simp, fun hn => absurd hn (by simp)⟩

theorem Input.toReceiver_iff (c : Input) : c.toReceiver = true ↔ c.agent = some .rx := by
  cases c <;> simp [Input.toReceiver, Input.agent]

/-- Settles O40: an input leaves alone the parts of the agents it is not for. -/
theorem agentsShareNoState : Obligations.AgentsShareNoState := by
  intro s t c later hp hs
  rw [step_of_pending hp] at hs
  injection hs with ht
  have others : ∀ a, c.agent ≠ a → t.part a = s.part a := fun a ha => by
    rw [← ht, part_perform_other _ (by simpa using ha), State.part_take]
  constructor
  · intro hc
    exact State.part_rx_eq.mp (others _ fun e => by simp [c.toReceiver_iff.mpr e] at hc)
  · intro hc
    have ha := c.toReceiver_iff.mp hc
    exact ⟨State.part_tx_eq.mp (others _ (by simp [ha])), State.part_dec_eq.mp (others _ (by simp [ha])),
      State.part_none_eq.mp (others _ (by simp [ha]))⟩

end Machine

end Sys2Proof

/-! PROOFS. The receiver's counter and buffer and the results handed out (spec/10_state.md R17 to R21): what one RXBYTE step
keeps, what every step of the machine keeps, and the statements O21, O24, O27, O42, O44 and O45. -/

namespace Sys2Proof.Machine

/-! ## The buffer and RXRUN -/

theorem RxState.getElem_store (r : RxState) (n i : Nat) (b : Byte) (hi : i < 11) :
    (r.store n b)[i] = if n = i then b else r.buf[i] := by
  simp [RxState.store, Vector.getElem_setIfInBounds]

/-- The collected bytes are read off the entries below `n`. -/
theorem RxState.contents_congr {r q : RxState} {n : Nat} (h : ∀ i < n, r.entry i = q.entry i) :
    r.contents n = q.contents n := by
  refine List.ext_getElem? fun i => ?_
  by_cases hi : i < n
  · simpa [RxState.contents, hi, RxState.entry] using h i hi
  · simp [RxState.contents, hi]

/-- The predicted length is read off entry 0. -/
theorem RxState.expectedLen_congr {r q : RxState} (h : r.entry 0 = q.entry 0) : r.expectedLen = q.expectedLen := by
  have h0 : r.buf[0] = q.buf[0] := by simpa [RxState.entry] using h
  rw [RxState.expectedLen, RxState.expectedLen, h0]

/-- Receivers that agree below `n` agree up to and with `n` once the same byte is written there. -/
theorem RxState.WrittenAt.agree {r q r' q' : RxState} {n : Nat} {b : Byte} (hr : r.WrittenAt r' n b)
    (hq : q.WrittenAt q' n b) (h : ∀ i < n, r.entry i = q.entry i) : ∀ i < n + 1, r'.entry i = q'.entry i := by
  intro i hi
  rw [hr i, hq i]
  split
  · rfl
  · exact h i (by omega)

theorem rxRun_cons (r : RxState) (b : Byte) (bs : List Byte) :
    rxRun r (b :: bs) = ((rxRun (rxByte r b).1 bs).1, (rxByte r b).2.toList ++ (rxRun (rxByte r b).1 bs).2) := rfl

/-! ## O21: the counter -/

/-- Settles O21, rule by rule. -/
theorem counterNextValue : Obligations.CounterNextValue := by
  intro r b
  obtain ⟨hb, e⟩ | ⟨hb, h0, e⟩ | ⟨hb, h11, e⟩ | ⟨hb, h1, h10, hl, e⟩ | ⟨hb, h1, h10, hl, e⟩ := rxByte_cases r b
  · simp [e, hb]
  · simp [e, hb, h0]
  · simp [e, hb, h11]
  · simp [e, hb, hl]
  · rw [e, if_neg (by simp [hb]), if_neg (by omega), if_neg (by omega), if_neg hl]
    exact cnt_toNat_succ _ h10

/-! ## O24: the collected bytes -/

theorem RxState.Tracks.of_cnt_zero {r : RxState} (h : r.cnt = 0) (consumed : List Byte) : r.Tracks consumed := by
  simp [RxState.Tracks, RxState.contents, h]

/-- Storing the consumed byte behind the last `n` consumed ones makes it the last of the last `n + 1`. -/
theorem RxState.Tracks.of_store {r : RxState} {c : BitVec 4} {n : Nat} {consumed : List Byte} (b : Byte) (hn : n < 11)
    (hc : c.toNat = n + 1) (hle : n ≤ consumed.length) (h : r.contents n = consumed.drop (consumed.length - n)) :
    RxState.Tracks ⟨c, r.store n b⟩ (consumed ++ [b]) := by
  refine ⟨by simp [hc, hle], ?_⟩
  rw [hc, r.contents_store c n b hn, h, List.length_append, List.length_singleton, Nat.add_sub_add_right,
    List.drop_append_of_le_length (Nat.sub_le ..)]

/-- Settles O24: a step leaves `cnt = 0`, starts anew with the header byte, or collects one byte more. -/
theorem collectedBytesAreTheLastConsumed : Obligations.CollectedBytesAreTheLastConsumed := by
  intro r b consumed ⟨hle, h⟩
  obtain ⟨-, e⟩ | ⟨-, h0, e⟩ | ⟨-, -, e⟩ | ⟨-, -, -, -, e⟩ | ⟨-, -, h10, -, e⟩ := rxByte_cases r b <;> rw [e]
  · exact .of_store b (by omega) rfl (Nat.zero_le _) (by simp [RxState.contents])
  · exact .of_cnt_zero h0 _
  · exact .of_cnt_zero rfl _
  · exact .of_cnt_zero rfl _
  · exact .of_store b (by omega) (cnt_toNat_succ _ h10) hle h

/-! ## O27: stale entries -/

/-- Receivers that agree on `cnt` and below it emit the same on one byte, and agree again. -/
theorem RxState.SameLive.rxByte {r q : RxState} (h : r.SameLive q) (b : Byte) :
    (rxByte r b).2 = (rxByte q b).2 ∧ (rxByte r b).1.SameLive (rxByte q b).1 := by
  obtain ⟨hc, he⟩ := h
  obtain ⟨hb, e⟩ | ⟨hb, h0, e⟩ | ⟨hb, h11, e⟩ | ⟨hb, h1, h10, hl, e⟩ | ⟨hb, h1, h10, hl, e⟩ := rxByte_cases r b <;> rw [e]
  · rw [rxByte_header q b hb]
    exact ⟨rfl, rfl, (r.store_written 1 0 b (by omega)).agree (q.store_written 1 0 b (by omega)) (by simp)⟩
  · rw [rxByte_unsync q b hb (hc ▸ h0)]
    exact ⟨rfl, hc, he⟩
  · rw [rxByte_overflow q b hb (hc ▸ h11)]
    exact ⟨rfl, rfl, by simp⟩
  · rw [RxState.expectedLen_congr (he 0 h1)] at hl
    rw [rxByte_collect q b hb (hc ▸ h1) (hc ▸ h10), ← hc, if_pos hl, RxState.contents_congr he]
    exact ⟨rfl, rfl, by simp⟩
  · rw [RxState.expectedLen_congr (he 0 h1)] at hl
    rw [rxByte_collect q b hb (hc ▸ h1) (hc ▸ h10), ← hc, if_neg hl]
    refine ⟨rfl, rfl, ?_⟩
    rw [cnt_toNat_succ _ h10]
    exact (r.store_written _ _ b (by omega)).agree (q.store_written _ _ b (by omega)) he

/-- Settles O27, by induction on the stream. -/
theorem staleEntriesAreUnobservable : Obligations.StaleEntriesAreUnobservable := by
  intro r q bs h
  induction bs generalizing r q with
  | nil => exact ⟨rfl, h⟩
  | cons b bs ih =>
    obtain ⟨hone, hlive⟩ := h.rxByte b
    obtain ⟨hmore, hend⟩ := ih _ _ hlive
    simp only [rxRun_cons]
    exact ⟨by rw [hone, hmore], hend⟩

/-! ## O44, O45: the machine's invariant -/

theorem RxState.Inv.of_cnt_zero {r : RxState} (h : r.cnt = 0) : r.Inv := by
  simp [RxState.Inv, RxState.CountInRange, RxState.MarkedFirstOnly, RxState.BelowExpected, h]

/-- Starting a frame meets the invariants: the header byte is the only entry collected, and every frame is longer (R56). -/
theorem RxState.Inv.of_header (r : RxState) {b : Byte} (h : isHeader b = true) : RxState.Inv ⟨1, r.store 0 b⟩ := by
  have hlen := frameLenH_bounds b
  refine ⟨by simp, fun _ => ⟨by simp [r.getElem_store, h], fun i h1 hi => ?_⟩, fun _ => ?_⟩
  · simp at hi; omega
  · simp [RxState.expectedLen, r.getElem_store]; omega

/-- Collecting a continuation byte that does not complete the frame keeps the invariants. -/
theorem RxState.Inv.collect {r : RxState} (h : r.Inv) {b : Byte} (hb : isHeader b = false) (h1 : 1 ≤ r.cnt.toNat)
    (hl : r.cnt.toNat + 1 ≠ r.expectedLen) : RxState.Inv ⟨r.cnt + 1, r.store r.cnt.toNat b⟩ := by
  obtain ⟨h10, hmarked, hbelow⟩ := h
  obtain ⟨hfirst, hrest⟩ := hmarked h1
  have hlt := hbelow h1
  have hmax : r.expectedLen ≤ 11 := (frameLenH_bounds _).2
  have hcnt := cnt_toNat_succ _ h10
  refine ⟨by simp only [RxState.CountInRange, hcnt]; omega, fun _ => ⟨?_, fun i hi1 hi => ?_⟩, fun _ => ?_⟩
  · rw [r.getElem_store _ _ _ (by omega), if_neg (by omega), hfirst]
  · simp only [hcnt] at hi
    rw [r.getElem_store]
    split
    · exact hb
    · exact hrest i hi1 (by omega)
  · rw [r.expectedLen_store _ _ b (by omega)]
    simp only [hcnt]; omega

theorem RxState.Inv.rxByte {r : RxState} (h : r.Inv) (b : Byte) : (rxByte r b).1.Inv := by
  obtain ⟨hb, e⟩ | ⟨-, -, e⟩ | ⟨-, -, e⟩ | ⟨-, -, -, -, e⟩ | ⟨hb, h1, -, hl, e⟩ := rxByte_cases r b <;> rw [e]
  · exact .of_header r hb
  · exact h
  · exact .of_cnt_zero rfl
  · exact .of_cnt_zero rfl
  · exact h.collect hb h1 hl

theorem wf_of_frameOf {bs : List Byte} {f : Frame} (h : frameOf bs = some f) : f.wf = true := by
  rw [frameOf] at h
  split at h
  · cases h; exact wf_of_decodeFrame ‹_›
  · cases h

/-- From any receiver, an emitted frame is well formed: only a completion emits, and it emits what DECODE answers. -/
theorem wf_of_rxByte {r : RxState} {b : Byte} {f : Frame} (h : (rxByte r b).2 = some f) : f.wf = true := by
  obtain ⟨-, e⟩ | ⟨-, -, e⟩ | ⟨-, -, e⟩ | ⟨-, -, -, -, e⟩ | ⟨-, -, -, -, e⟩ := rxByte_cases r b <;> rw [e] at h
  case inr.inr.inr.inl => exact wf_of_frameOf h
  all_goals cases h

theorem RxState.Inv.rxRun {r : RxState} (h : r.Inv) (bs : List Byte) : (rxRun r bs).1.Inv := by
  induction bs generalizing r with
  | nil => exact h
  | cons b bs ih => exact ih (h.rxByte b)

theorem wf_of_mem_rxRun {r : RxState} {bs : List Byte} : ∀ f ∈ (rxRun r bs).2, f.wf = true := by
  induction bs generalizing r with
  | nil => simp
  | cons b bs ih =>
    rw [rxRun_cons]
    exact List.forall_mem_append.mpr ⟨fun f hf => wf_of_rxByte (Option.mem_toList.mp hf), ih⟩

/-- What ENCODE answers has the wire shape (R90): the header byte's fields are the operands', so it predicts the length. -/
theorem wireShaped_of_encodeFrame {k : Kind} {id : Byte} {dc : Nat} {p w : List Byte}
    (h : encodeFrame k id dc p = .ok w) : WireShaped w := by
  have hv := valid_of_encodeFrame h
  obtain ⟨hlen, hfirst, hrest, -⟩ := encodeFrame_bytes _ hv w h
  obtain ⟨h1, h8, -⟩ := hv
  cases w with
  | nil => have := frameLen_bounds k dc h1 h8; simp at hlen; omega
  | cons b0 tail =>
    obtain rfl : b0 = header0 k dc id := by simpa using hfirst
    refine ⟨isHeader_header0 .., fun b hb => ?_, ?_⟩
    · obtain ⟨i, hi, rfl⟩ := List.mem_iff_getElem.mp hb
      rw [← List.getD_eq_getElem _ 0 hi]
      exact hrest (i + 1) (by omega)
    · rw [hlen, List.headD_cons, frameLenH, kindOf_header0 k dc id h1 h8, dcOf_header0 k dc id h1 h8]

/-- Every operation keeps the invariant: it sets the receiver to one that meets its invariants, or it hands out a result
that does. -/
theorem State.Inv.perform {s : State} (h : s.Inv) (c : Input) : (perform c s).Inv := by
  have receive (bs : List Byte) : (s.receive bs).Inv := by
    obtain ⟨hrx, hemitted, hcalls⟩ := h
    exact ⟨hrx.rxRun bs, List.forall_mem_append.mpr ⟨hemitted, wf_of_mem_rxRun⟩, hcalls⟩
  obtain ⟨hrx, hemitted, hencoded, hdecoded⟩ := h
  cases c with
  | rxByte b => exact receive [b]
  | rxRun bs => exact receive bs
  | encode kind id dc payload =>
    refine ⟨hrx, hemitted, List.forall_mem_append.mpr ⟨hencoded, List.forall_mem_singleton.mpr ?_⟩, hdecoded⟩
    split
    · exact wireShaped_of_encodeFrame ‹_›
    · trivial
  | decode bs =>
    refine ⟨hrx, hemitted, hencoded, List.forall_mem_append.mpr ⟨hdecoded, List.forall_mem_singleton.mpr ?_⟩⟩
    split
    · exact wf_of_decodeFrame ‹_›
    · trivial
  | reset => exact ⟨.of_cnt_zero rfl, hemitted, hencoded, hdecoded⟩
  | isHeader | frameLen | frameLenH => exact ⟨hrx, hemitted, hencoded, hdecoded⟩

/-- Everything a step can do: it waits, or it performs an operation on the state that has taken the input. -/
theorem step_cases {s t : State} (h : step s = .next t) : t = s ∨ ∃ c c' later, t = perform c (s.take c' later) := by
  cases hp : s.pending with
  | nil => rw [step_of_waiting hp] at h; cases h; exact .inl rfl
  | cons c later => rw [step_of_pending hp] at h; cases h; exact .inr ⟨_, _, _, rfl⟩

/-- Settles O44: waiting and taking the input leave all the invariant speaks of, and every operation keeps it. -/
theorem stepKeepsTheInvariant : Obligations.StepKeepsTheInvariant := by
  intro s t h hs
  obtain rfl | ⟨c, c', later, rfl⟩ := step_cases hs
  · exact h
  · exact State.Inv.perform (s := s.take c' later) h c

/-- Settles O45: right after reset the receiver waits for a header byte and nothing has been handed out. -/
theorem resetMeetsTheInvariant : Obligations.ResetMeetsTheInvariant :=
  ⟨⟨.of_cnt_zero rfl, by simp [State.reset]⟩, rfl, rfl⟩

/-! ## O42: what has been handed out -/

/-- Settles O42, operation by operation: each appends to at most one of the four lists. -/
theorem handedOutResultsStand : Obligations.HandedOutResultsStand := by
  intro s t hs
  obtain rfl | ⟨c, c', later, rfl⟩ := step_cases hs
  · simp
  · cases c <;> simp [perform]

end Sys2Proof.Machine

/-! PROOFS. The receiver's synchronizing event (spec/20_memory.md R40, spec/42_rx_sync.md R121): the statement O31. -/

namespace Sys2Proof.Machine

/-! ## O31: a header byte synchronizes -/

/-- Rule 1 takes any two receivers to ones that differ only in entries no rule reads (R121, R17): each has collected the
header byte and nothing else. -/
theorem rxByte_header_sameLive (r q : RxState) {b : Byte} (h : isHeader b = true) :
    (rxByte r b).2 = (rxByte q b).2 ∧ (rxByte r b).1.SameLive (rxByte q b).1 := by
  rw [rxByte_header r b h, rxByte_header q b h]
  exact ⟨rfl, rfl, (r.store_written 1 0 b (by omega)).agree (q.store_written 1 0 b (by omega)) (by simp)⟩

/-- Settles O31: the header byte brings the two receivers to states that agree on all that is read (rule 1), and from there
the stale entries affect no output (O27). -/
theorem headerByteSynchronizes : Obligations.HeaderByteSynchronizes := by
  intro r q b bs h
  obtain ⟨hone, hlive⟩ := rxByte_header_sameLive r q h
  have hmore := (staleEntriesAreUnobservable _ _ bs hlive).1
  simp only [rxRun_cons, hone, hmore]

end Sys2Proof.Machine

/-! PROOFS. The bits of the wire (spec/30_encoding.md R57, R58): where PACK puts each payload bit and where UNPACK reads it, each
once for all positions, and the statement O10. -/

namespace Sys2Proof

/-! ## The bits of a payload and of the wire, in order of transmission -/

/-- Bit `j` of a payload, the high bit of each byte first (R57); past the payload, `false`. -/
def payloadBit (p : List Byte) (j : Nat) : Bool := (p.getD (j / 8) 0).getLsbD (7 - j % 8)

/-- Bit `q` of the wire without its markers: seven bits of each byte, the high one first (R50, R57). Payload bit `j` of a frame
is bit `13 + j` (R58). -/
def wireBit (w : List Byte) (q : Nat) : Bool := (w.getD (q / 7) 0).getLsbD (6 - q % 7)

theorem payloadBit_of_le {p : List Byte} {j : Nat} (h : 8 * p.length ≤ j) : payloadBit p j = false := by
  rw [payloadBit, List.getD_eq_default _ _ (by omega)]; exact BitVec.getLsbD_zero

theorem payloadBit_cons (v : Byte) (p : List Byte) (j : Nat) :
    payloadBit (v :: p) j = if j < 8 then v.getLsbD (7 - j) else payloadBit p (j - 8) := by
  split
  · simp [payloadBit, show j / 8 = 0 by omega, show j % 8 = j by omega]
  · simp [payloadBit, show j / 8 = (j - 8) / 8 + 1 by omega, show j % 8 = (j - 8) % 8 by omega]

theorem wireBit_at (w : List Byte) {q k m : Nat} (hq : q = 7 * k + m) (hm : m < 7) :
    wireBit w q = (w.getD k 0).getLsbD (6 - m) := by
  rw [wireBit, show q / 7 = k by omega, show q % 7 = m by omega]

/-- The position of R58, as a position on the wire. -/
theorem wireBit_payload (w : List Byte) (j : Nat) :
    wireBit w (13 + j) = (w.getD (1 + (j + 6) / 7) 0).getLsbD (6 - (j + 6) % 7) :=
  wireBit_at w (by omega) (by omega)

/-! ## PACK -/

/-- The two writes of PACK for one payload byte (R88). -/
def packStep (v : Byte) (i pos : Nat) (w : List Byte) : List Byte :=
  (w.modify i (fun x => x ||| (v >>> (7 - pos)))).set (i + 1) ((v <<< pos) &&& 0x7F#8)

theorem packLoop_cons (v : Byte) (vs : List Byte) (i pos : Nat) (w : List Byte) :
    packLoop (v :: vs) i pos w =
      if pos = 0 then packLoop vs (i + 2) 6 (packStep v i pos w) else packLoop vs (i + 1) (pos - 1) (packStep v i pos w) :=
  rfl

@[simp] theorem length_packStep (v : Byte) (i pos : Nat) (w : List Byte) : (packStep v i pos w).length = w.length := by
  simp [packStep]

theorem getD_packStep (v : Byte) {i : Nat} (pos k : Nat) {w : List Byte} (hi : i + 1 < w.length) :
    (packStep v i pos w).getD k 0 =
      if k = i + 1 then (v <<< pos) &&& 0x7F#8 else if k = i then w.getD i 0 ||| (v >>> (7 - pos)) else w.getD k 0 := by
  have hi' : i < w.length := by omega
  simp only [packStep, List.getD_eq_getElem?_getD, List.getElem?_set, List.getElem?_modify, List.length_modify]
  split
  · simp [← ‹i + 1 = k›]
  · split
    · simp [← ‹i = k›, hi']
    · simp [show k ≠ i + 1 by omega, show k ≠ i by omega]

/-- One byte of PACK puts its eight bits, in order, at the position `(i, pos)` stands for, and leaves zeros after them. -/
theorem wireBit_packStep (v : Byte) {i pos : Nat} {w : List Byte} (hpos : pos ≤ 6) (hi : i + 1 < w.length)
    (hz : ∀ q, 7 * i + 6 - pos ≤ q → wireBit w q = false) (q : Nat) :
    wireBit (packStep v i pos w) q =
      if q < 7 * i + 6 - pos then wireBit w q
      else if q < 7 * i + 14 - pos then v.getLsbD (7 - (q - (7 * i + 6 - pos))) else false := by
  have hw : 7 * i + 6 - pos ≤ q → (w.getD (q / 7) 0).getLsbD (6 - q % 7) = false := hz q
  rw [wireBit, getD_packStep v pos _ hi]
  split
  · -- the second byte: the low part of `v`
    rw [if_neg (by omega)]
    split
    · rename_i hk hq
      have h6 : (0x7F#8).getLsbD (6 - q % 7) = true := by
        have : q % 7 < 7 := Nat.mod_lt _ (by omega)
        interval_cases q % 7 <;> rfl
      rw [BitVec.getLsbD_and, h6, BitVec.getLsbD_shiftLeft]
      simp [show 6 - q % 7 < 8 by omega, show ¬ 6 - q % 7 < pos by omega,
        show 6 - q % 7 - pos = 7 - (q - (7 * i + 6 - pos)) by omega]
    · simp [show 6 - q % 7 < pos by omega]
  · split
    · -- the first byte: the high part of `v`
      rename_i hk
      rw [BitVec.getLsbD_or, BitVec.getLsbD_ushiftRight, ← hk]
      split
      · simp [wireBit, BitVec.getLsbD_of_ge v (7 - pos + (6 - q % 7)) (by omega)]
      · rw [hw (by omega), if_pos (by omega), Bool.false_or]
        congr 1; omega
    · -- the other bytes
      split
      · rfl
      · rw [hw (by omega), if_neg (by omega)]

/-- PACK from `(i, pos)` puts the payload's bits there in order, leaves what stands before and zeros what follows (R88). -/
theorem wireBit_packLoop (p : List Byte) {i pos : Nat} {w : List Byte} (hpos : pos ≤ 6)
    (hlen : 7 * i + 6 - pos + 8 * p.length ≤ 7 * w.length) (hz : ∀ q, 7 * i + 6 - pos ≤ q → wireBit w q = false) (q : Nat) :
    wireBit (packLoop p i pos w) q =
      if q < 7 * i + 6 - pos then wireBit w q else payloadBit p (q - (7 * i + 6 - pos)) := by
  induction p generalizing i pos w with
  | nil =>
    rw [payloadBit_of_le (by simp), packLoop]
    split
    · rfl
    · exact hz q (by omega)
  | cons v p ih =>
    rw [List.length_cons] at hlen
    have hone := wireBit_packStep v hpos (show i + 1 < w.length by omega) hz
    -- wherever the next byte starts, it starts eight bits on
    have next (i' pos' : Nat) (hpos' : pos' ≤ 6) (hnext : 7 * i' + 6 - pos' = 7 * i + 14 - pos) :
        wireBit (packLoop p i' pos' (packStep v i pos w)) q =
          if q < 7 * i + 6 - pos then wireBit w q else payloadBit (v :: p) (q - (7 * i + 6 - pos)) := by
      rw [ih hpos' (by rw [length_packStep]; omega)
        (fun q hq => by rw [hone, if_neg (by omega), if_neg (by omega)]), hone, payloadBit_cons, hnext]
      by_cases h0 : q < 7 * i + 6 - pos
      · simp [h0, show q < 7 * i + 14 - pos by omega]
      · by_cases h8 : q < 7 * i + 14 - pos
        · simp [h0, h8, show q - (7 * i + 6 - pos) < 8 by omega]
        · simp [h0, h8, show ¬ q - (7 * i + 6 - pos) < 8 by omega,
            show q - (7 * i + 14 - pos) = q - (7 * i + 6 - pos) - 8 by omega]
    rw [packLoop_cons]
    split
    · exact next (i + 2) 6 (by omega) (by omega)
    · exact next (i + 1) (pos - 1) (by omega) (by omega)

/-! ## UNPACK -/

/-- One byte of UNPACK: eight bits of the wire, in order, from the position `(i, pos)` stands for. -/
theorem getLsbD_unpackStep {bs : List Byte} {i pos j : Nat} (hpos : pos ≤ 6)
    (hmark : isHeader (bs.getD (i + 1) 0) = false) (hj : j < 8) :
    ((bs.getD i 0 <<< (7 - pos)) ||| (bs.getD (i + 1) 0 >>> pos)).getLsbD (7 - j) =
      wireBit bs (7 * i + 6 - pos + j) := by
  rw [BitVec.getLsbD_or, BitVec.getLsbD_shiftLeft, BitVec.getLsbD_ushiftRight]
  by_cases h : j ≤ pos
  · -- the high part, from the first byte; from the second there is at most its marker, which is clear
    rw [wireBit_at bs (show 7 * i + 6 - pos + j = 7 * i + (6 - pos + j) by omega) (by omega)]
    have hb : (bs.getD (i + 1) 0).getLsbD (pos + (7 - j)) = false := by
      by_cases e : pos + (7 - j) = 7
      · rw [e]; exact hmark
      · exact BitVec.getLsbD_of_ge _ _ (by omega)
    rw [hb]
    simp [show 7 - j < 8 by omega, show ¬ 7 - j < 7 - pos by omega, show 7 - j - (7 - pos) = 6 - (6 - pos + j) by omega]
  · rw [wireBit_at bs (show 7 * i + 6 - pos + j = 7 * (i + 1) + (j - 1 - pos) by omega) (by omega)]
    simp [show 7 - j < 7 - pos by omega, show pos + (7 - j) = 6 - (j - 1 - pos) by omega]

/-- UNPACK from `(i, pos)` gives the bits of the wire from there on, in order (R106). -/
theorem payloadBit_unpackLoop {n i pos j : Nat} {bs : List Byte} (hpos : pos ≤ 6)
    (hmark : ∀ k, 1 ≤ k → isHeader (bs.getD k 0) = false) (hj : j < 8 * n) :
    payloadBit (unpackLoop n i pos bs) j = wireBit bs (7 * i + 6 - pos + j) := by
  induction n generalizing i pos j with
  | zero => omega
  | succ n ih =>
    rw [unpackLoop, payloadBit_cons]
    split
    · exact getLsbD_unpackStep hpos (hmark _ (by omega)) ‹_›
    · split
      · rw [ih (by omega) (by omega)]; congr 1; omega
      · rw [ih (by omega) (by omega)]; congr 1; omega

/-! ## The wire shape, byte by byte -/

theorem wireShaped_iff_getD {w : List Byte} :
    WireShaped w ↔ isHeader (w.getD 0 0) = true ∧ (∀ k, 1 ≤ k → isHeader (w.getD k 0) = false) ∧
      w.length = frameLenH (w.getD 0 0) := by
  cases w with
  | nil => simp [WireShaped, isHeader]
  | cons b0 tail =>
    refine and_congr_right fun _ => and_congr_left fun _ => ⟨fun h k hk => ?_, fun h b hb => ?_⟩
    · obtain ⟨k, rfl⟩ : ∃ k', k = k' + 1 := ⟨k - 1, by omega⟩
      rw [List.getD_cons_succ]
      by_cases hl : k < tail.length
      · rw [List.getD_eq_getElem _ _ hl]; exact h _ (List.getElem_mem hl)
      · rw [List.getD_eq_default _ _ (by omega)]; rfl
    · obtain ⟨k, hk, rfl⟩ := List.mem_iff_getElem.mp hb
      rw [← List.getD_eq_getElem _ 0 hk]
      exact h (k + 1) (by omega)

/-- The bits of a decoded payload are those of the wire from position 13 on (R58, R106). -/
theorem payloadBit_of_decodeFrame {bs : List Byte} {f : Frame} (h : decodeFrame bs = .ok f) {j : Nat}
    (hj : j < 8 * f.payload.length) : payloadBit f.payload j = wireBit bs (13 + j) := by
  obtain ⟨b0, b1, tail, -, -, -, -, -, -, ⟨-, hp⟩ | ⟨-, hshape, hp⟩⟩ := decodeFrame_ok h
  · simp [hp] at hj
  · obtain ⟨-, hmark, -⟩ := wireShaped_iff_getD.mp hshape
    rw [hp, length_unpack] at hj
    rw [hp, unpack, payloadBit_unpackLoop (by omega) hmark hj]

/-- What a well-formed frame is (R9). -/
theorem Frame.wf_iff {f : Frame} :
    f.wf = true ↔ 1 ≤ f.dc ∧ f.dc ≤ 8 ∧ (f.kind = .readRequest → f.payload = []) ∧
      (f.kind ≠ .readRequest → f.payload.length = f.dc) := by
  by_cases hk : f.kind = .readRequest <;> simp [Frame.wf, hk, and_assoc] <;> rfl

/-- Settles O10, by what UNPACK's loop reads from any position on. -/
theorem decodedPayloadBits : Obligations.DecodedPayloadBits := by
  intro bs f h hk
  obtain ⟨-, -, -, hlen⟩ := Frame.wf_iff.mp (wf_of_decodeFrame h)
  have hlen := hlen hk
  exact ⟨hlen, fun j hj => (payloadBit_of_decodeFrame h (by omega)).trans (wireBit_payload bs j)⟩

end Sys2Proof

/-! PROOFS. What ENCODE puts on the wire and what DECODE can have read from it (spec/40_encode.md R83 to R90,
spec/41_decode.md R111, R112): the bytes of a frame row and of a decoded frame, bit by bit, and the statement O7. -/

namespace Sys2Proof

/-! ## The header byte -/

/-- `w[0]` of ENCODE is the header byte of its fields (R51, R83). -/
theorem header0_eq_headerByteOf (k : Kind) (id : Byte) {dc : Nat} (h1 : 1 ≤ dc) (h8 : dc ≤ 8) :
    header0 k dc id = headerByteOf k (BitVec.ofNat 3 (dc - 1)) (id.extractLsb' 6 2) := by
  have hid : id >>> 6 = (id.extractLsb' 6 2).setWidth 8 := by
    apply BitVec.eq_of_getElem_eq; intro i hi
    interval_cases i <;> simp
  have hdc : BitVec.ofNat 8 (dc - 1) = (BitVec.ofNat 3 (dc - 1)).setWidth 8 := by interval_cases dc <;> rfl
  rw [header0, headerByteOf, hid, hdc]

theorem toNat_lt_of_not_isHeader {b : Byte} (h : isHeader b = false) : b.toNat < 128 := by
  revert b; decide

theorem toNat_headerByteOf (k : Kind) (d : BitVec 3) (i : BitVec 2) :
    (headerByteOf k d i).toNat = 128 + 32 * k.code.toNat + 4 * d.toNat + i.toNat := by
  revert d i; cases k <;> decide

/-- The header byte as a number (R83). -/
theorem toNat_header0 (k : Kind) (id : Byte) {dc : Nat} (h1 : 1 ≤ dc) (h8 : dc ≤ 8) :
    (header0 k dc id).toNat = 128 + 32 * k.code.toNat + 4 * (dc - 1) + id.toNat / 64 := by
  rw [header0_eq_headerByteOf k id h1 h8, toNat_headerByteOf]
  simp [Nat.shiftRight_eq_div_pow]; omega

/-! ## The length of a frame, in bits -/

/-- The bits of a frame without its markers: thirteen of the header, the payload, and the ignored ones (R56, R60, R61). -/
theorem Frame.bit_count {f : Frame} (h : f.wf = true) :
    13 + 8 * f.payload.length + ignoredBits f.kind f.dc = 7 * frameLen f.kind f.dc := by
  obtain ⟨h1, h8, hnone, hlen⟩ := Frame.wf_iff.mp h
  by_cases hk : f.kind = .readRequest
  · simp [hnone hk, ignoredBits, frameLen, hk, Config.hdrLen]
  · rw [hlen hk, ignoredBits, frameLen, if_neg hk, if_neg hk, lenOf]
    omega

/-! ## The frame of a frame row's operands -/

@[simp] theorem FrameOperands.frame_kind (o : FrameOperands) : o.frame.kind = o.kind := rfl
@[simp] theorem FrameOperands.frame_id (o : FrameOperands) : o.frame.id = o.id := rfl
@[simp] theorem FrameOperands.frame_dc (o : FrameOperands) : o.frame.dc = o.dc := rfl

theorem FrameOperands.frame_payload_readRequest {o : FrameOperands} (h : o.kind = .readRequest) : o.frame.payload = [] :=
  if_pos h

theorem FrameOperands.frame_payload {o : FrameOperands} (h : o.kind ≠ .readRequest) : o.frame.payload = o.payload :=
  if_neg h

theorem FrameOperands.wf_frame {o : FrameOperands} (h : o.valid) : o.frame.wf = true := by
  obtain ⟨h1, h8, hp, -⟩ := h
  exact Frame.wf_iff.mpr ⟨h1, h8, frame_payload_readRequest, fun hk => by rw [frame_payload hk]; exact hp hk⟩

theorem FrameOperands.frameLen_bounds {o : FrameOperands} (h : o.valid) :
    2 ≤ frameLen o.kind o.dc ∧ frameLen o.kind o.dc ≤ 11 := by
  obtain ⟨h1, h8, -⟩ := h
  exact Sys2Proof.frameLen_bounds _ _ h1 h8

theorem FrameOperands.ignoredBits_le {o : FrameOperands} (h : o.valid) : ignoredBits o.kind o.dc ≤ 6 := by
  obtain ⟨h1, h8, -⟩ := h
  exact Sys2Proof.ignoredBits_le _ _ h1 h8

/-! ## ENCODE -/

/-- Before PACK there are zeros from position 13 on. -/
theorem wireBit_blank (b0 id : Byte) {n q : Nat} (h : 13 ≤ q) :
    wireBit (b0 :: header1 id :: List.replicate n 0) q = false := by
  obtain hq | ⟨m, hq⟩ : q / 7 = 1 ∨ ∃ m, q / 7 = m + 2 := by
    by_cases hq : q / 7 = 1
    · exact .inl hq
    · exact .inr ⟨q / 7 - 2, by omega⟩
  · simp [wireBit, hq, header1, show 6 - q % 7 = 0 by omega]
  · rw [wireBit, hq, List.getD_cons_succ, List.getD_cons_succ, List.getD_eq_getElem?_getD, List.getElem?_replicate]
    split <;> exact BitVec.getLsbD_zero

/-- From position 13 on ENCODE's bytes hold the frame's payload, then zeros (R58, R60, R61). -/
theorem wireBit_encodeFrame {o : FrameOperands} (h : o.valid) {w : List Byte}
    (hw : encodeFrame o.kind o.id o.dc o.payload = .ok w) (j : Nat) :
    wireBit w (13 + j) = payloadBit o.frame.payload j := by
  rw [encodeFrame_valid o h] at hw
  injection hw with hw
  by_cases hk : o.kind = .readRequest
  · rw [if_pos hk] at hw
    rw [← hw, FrameOperands.frame_payload_readRequest hk, payloadBit_of_le (by simp)]
    exact wireBit_blank (n := 0) _ _ (by omega)
  · rw [if_neg hk] at hw
    obtain ⟨h1, h8, hp, -⟩ := h
    have hlen : 7 * 1 + 6 - 0 + 8 * o.payload.length ≤ 7 * (blankFrame o.kind o.id o.dc).length := by
      simp [hp hk, blankFrame, lenOf]; omega
    rw [← hw, pack, wireBit_packLoop _ (by omega) hlen (fun q hq => wireBit_blank _ _ hq), if_neg (by omega),
      FrameOperands.frame_payload hk, show 13 + j - (7 * 1 + 6 - 0) = j by omega]

namespace Machine

/-- Settles O7: the bytes are ENCODE's, and PACK puts the payload's bits where R58 says. -/
theorem encodePlacesEveryBit : Obligations.EncodePlacesEveryBit := by
  intro i o s hi h hs
  obtain ⟨w, hw⟩ : ∃ w, encodeFrame o.kind o.id o.dc o.payload = .ok w := ⟨_, encodeFrame_valid o h⟩
  obtain ⟨hlen, hfirst, hmark, hid⟩ := encodeFrame_bytes o h _ hw
  have hbits := wireBit_encodeFrame h hw
  obtain ⟨h1, h8, hp, -⟩ := h
  refine ⟨w, ?_, hlen, ?_, ?_, hmark, fun hk => ?_, fun hk j _ => ?_⟩
  · rw [exec_frameRow s hi, State.frameStep_tx o hs, State.transmit, hw]
  · rw [hfirst, toNat_header0 _ _ h1 h8]
  · have hlow := toNat_lt_of_not_isHeader (hmark 1 (by omega))
    have hid := congrArg BitVec.toNat hid
    simp only [BitVec.toNat_and, BitVec.toNat_ushiftRight, Nat.shiftRight_eq_div_pow,
      show (0x3F#8).toNat = 2 ^ 6 - 1 from rfl, Nat.and_two_pow_sub_one_eq_mod] at hid
    omega
  · rw [← wireBit_at w (q := 13) (k := 1) (m := 6) rfl (by omega), hbits 0, FrameOperands.frame_payload_readRequest hk]
    rfl
  · rw [← wireBit_payload, hbits, FrameOperands.frame_payload hk]
    split
    · rfl
    · exact payloadBit_of_le (by rw [hp hk]; omega)

end Machine

end Sys2Proof

/-! PROOFS. The wire bytes of a frame row, and which bytes DECODE can have read a frame from (spec/40_encode.md R90,
spec/41_decode.md R103, R111, R131): the wire shape, the frame and the ignored bits together determine the bytes. -/

namespace Sys2Proof

/-! ## The wire bytes of a frame row -/

theorem FrameOperands.isHeader_ignored {o : FrameOperands} (h : o.valid) : isHeader o.ignored = false := by
  have hle := o.ignoredBits_le h
  obtain ⟨-, -, -, hign⟩ := h
  exact getLsbD_of_toNat_lt hign (by omega)

/-- The wire bytes of a frame row are ENCODE's, with the ignored bits in the last one. -/
theorem FrameOperands.exists_wire {o : FrameOperands} (h : o.valid) :
    ∃ w, encodeFrame o.kind o.id o.dc o.payload = .ok w ∧ w.length = frameLen o.kind o.dc ∧
      ∀ k, o.wire.getD k 0 = if k = frameLen o.kind o.dc - 1 then w.getD k 0 ||| o.ignored else w.getD k 0 := by
  obtain ⟨w, hw⟩ : ∃ w, encodeFrame o.kind o.id o.dc o.payload = .ok w := ⟨_, encodeFrame_valid o h⟩
  obtain ⟨hlen, -⟩ := encodeFrame_bytes o h w hw
  have hb := o.frameLen_bounds h
  refine ⟨w, hw, hlen, fun k => ?_⟩
  simp only [wire, hw, hlen, List.getD_eq_getElem?_getD, List.getElem?_modify, eq_comm (a := k)]
  split
  · simp [show k < w.length by omega]
  · simp

theorem FrameOperands.wire_head {o : FrameOperands} (h : o.valid) : o.wire.getD 0 0 = header0 o.kind o.dc o.id := by
  obtain ⟨w, hw, -, hget⟩ := o.exists_wire h
  obtain ⟨-, hfirst, -⟩ := encodeFrame_bytes o h w hw
  have hb := o.frameLen_bounds h
  rw [hget, if_neg (by omega), hfirst]

/-- The wire bytes of a frame row have the wire shape (R90): the ignored bits set no marker. -/
theorem FrameOperands.wireShaped_wire {o : FrameOperands} (h : o.valid) : WireShaped o.wire := by
  obtain ⟨w, hw, -, hget⟩ := o.exists_wire h
  obtain ⟨-, -, hmark, -⟩ := encodeFrame_bytes o h w hw
  have ⟨h1, h8, _⟩ := h
  refine wireShaped_iff_getD.mpr ⟨?_, fun k hk => ?_, ?_⟩
  · rw [o.wire_head h, isHeader_header0]
  · rw [hget]
    split
    · rw [isHeader_or, hmark k hk, o.isHeader_ignored h]; rfl
    · exact hmark k hk
  · rw [o.wire_head h, o.length_wire h, frameLenH, kindOf_header0 _ _ _ h1 h8, dcOf_header0 _ _ _ h1 h8]

/-- The ignored bits of the last wire byte are the row's (R60, R61): ENCODE leaves them zero. -/
theorem FrameOperands.getLsbD_wire_last {o : FrameOperands} (h : o.valid) {j : Nat} (hj : j < ignoredBits o.kind o.dc) :
    (o.wire.getD (frameLen o.kind o.dc - 1) 0).getLsbD j = o.ignored.getLsbD j := by
  obtain ⟨w, hw, -, hget⟩ := o.exists_wire h
  have hcount := Frame.bit_count (o.wf_frame h)
  have hign := o.ignoredBits_le h
  rw [frame_kind, frame_dc] at hcount
  have hzero : wireBit w (13 + (7 * frameLen o.kind o.dc - 14 - j)) = false := by
    rw [wireBit_encodeFrame h hw]; exact payloadBit_of_le (by omega)
  rw [wireBit_at w (k := frameLen o.kind o.dc - 1) (m := 6 - j) (by omega) (by omega),
    show 6 - (6 - j) = j by omega] at hzero
  rw [hget, if_pos rfl, BitVec.getLsbD_or, hzero, Bool.false_or]

/-! ## DECODE of the wire bytes of a frame row -/

theorem ushiftRight_one_or_lt_two (a : Byte) {b : Byte} (h : b.toNat < 2) : (a ||| b) >>> 1 = a >>> 1 := by
  have hb : b >>> 1 = 0#8 := BitVec.eq_of_toNat_eq (by simp [Nat.shiftRight_eq_div_pow]; omega)
  rw [BitVec.ushiftRight_or_distrib, hb, BitVec.or_zero]

theorem FrameOperands.idOf_wire {o : FrameOperands} (h : o.valid) : idOf (o.wire.getD 0 0) (o.wire.getD 1 0) = o.id := by
  obtain ⟨w, hw, -, hget⟩ := o.exists_wire h
  obtain ⟨-, -, -, hid⟩ := encodeFrame_bytes o h w hw
  have ⟨h1, h8, _, hign⟩ := h
  rw [o.wire_head h]
  refine idOf_header0 _ _ _ _ h1 h8 ?_
  rw [hget, ← hid]
  split
  · -- only a ReadRequest has its ignored bit in the second byte
    have hk : o.kind = .readRequest := by
      by_contra hk
      simp only [frameLen, if_neg hk, lenOf] at *
      omega
    rw [ushiftRight_one_or_lt_two _ (by simpa [ignoredBits, hk] using hign)]
  · rfl

/-- DECODE gives back the frame of a frame row's wire bytes (R111), whatever its ignored bits. -/
theorem FrameOperands.decodeFrame_wire {o : FrameOperands} (h : o.valid) : decodeFrame o.wire = .ok o.frame := by
  have hhead := o.wire_head h
  have hid := o.idOf_wire h
  have ⟨h1, h8, hp, hign⟩ := h
  obtain ⟨f, hf, -⟩ := decodeFrame_of_shape (o.wireShaped_wire h)
  obtain ⟨b0, b1, tail, hw, -, -, hfk, hfi, hfd, hfp⟩ := decodeFrame_ok hf
  simp only [hw, List.getD_cons_zero, List.getD_cons_succ] at hhead hid
  rw [hhead, kindOf_header0 _ _ _ h1 h8] at hfk hfp
  rw [hhead, dcOf_header0 _ _ _ h1 h8] at hfd
  rw [dcOf_header0 _ _ _ h1 h8] at hfp
  have hpayload : f.payload = o.frame.payload := by
    obtain ⟨hk, e⟩ | ⟨hk, -, e⟩ := hfp
    · rw [e, frame_payload_readRequest hk]
    · rw [ignoredBits, if_neg hk] at hign
      have hwire : o.wire = (pack o.payload (blankFrame o.kind o.id o.dc)).modify (lenOf o.dc - 1) (· ||| o.ignored) := by
        have hlen : (pack o.payload (blankFrame o.kind o.id o.dc)).length = lenOf o.dc := by
          simp [pack, length_packLoop, blankFrame, lenOf]
        simp only [wire, encodeFrame_valid o h, if_neg hk, hlen]
      rw [e, frame_payload hk, hwire]
      exact unpack_pack o.dc h1 h8 o.payload (hp hk) _ _ _ (by simp [header1]) hign
  rw [hf]
  obtain ⟨fk, fi, fd, fp⟩ := f
  simp only at hfk hfi hfd hpayload
  rw [hfk, hfi, hfd, hpayload, hid]
  rfl

/-! ## A frame and its ignored bits determine the bytes -/

theorem frameLenH_of_decodeFrame {w : List Byte} {f : Frame} (h : decodeFrame w = .ok f) :
    frameLenH (w.headD 0) = frameLen f.kind f.dc := by
  obtain ⟨b0, b1, tail, rfl, -, -, hk, -, hd, -⟩ := decodeFrame_ok h
  rw [List.headD_cons, frameLenH, hk, hd]

/-- Bytes that decode have the wire shape, unless they are a ReadRequest with surplus bytes (R103, R131). -/
theorem wireShaped_of_decodeFrame {w : List Byte} {f : Frame} (h : decodeFrame w = .ok f)
    (hlen : w.length ≤ frameLenH (w.headD 0)) : WireShaped w := by
  obtain ⟨b0, b1, tail, rfl, h0, h1, -, -, -, ⟨hk, -⟩ | ⟨-, hs, -⟩⟩ := decodeFrame_ok h
  · rw [List.headD_cons, frameLenH, frameLen, if_pos hk] at hlen
    obtain rfl : tail = [] := List.length_eq_zero_iff.mp (by simpa [Config.hdrLen] using hlen)
    exact ⟨h0, by simpa using h1, by simp [frameLenH, frameLen, hk, Config.hdrLen]⟩
  · exact hs

theorem WireShaped.length_of_decodeFrame {w : List Byte} {f : Frame} (hs : WireShaped w) (h : decodeFrame w = .ok f) :
    w.length = frameLen f.kind f.dc := by
  obtain ⟨-, -, hlen⟩ := hs
  rw [hlen, frameLenH_of_decodeFrame h]

/-- The first byte is the header byte of the decoded fields. -/
theorem head_of_decodeFrame {w : List Byte} {f : Frame} (h : decodeFrame w = .ok f) :
    w.getD 0 0 = header0 f.kind f.dc f.id := by
  obtain ⟨b0, b1, tail, rfl, h0, -, hk, hi, hd, -⟩ := decodeFrame_ok h
  rw [hk, hi, hd, header0_of_fields b0 b1 h0, List.getD_cons_zero]

/-- The low six bits of a decoded id are those of the second byte (R55). -/
theorem wireBit_of_decodeFrame_id {w : List Byte} {f : Frame} (h : decodeFrame w = .ok f) {q : Nat} (h7 : 7 ≤ q)
    (h13 : q < 13) : wireBit w q = f.id.getLsbD (12 - q) := by
  obtain ⟨b0, b1, tail, rfl, -, -, -, hid, -⟩ := decodeFrame_ok h
  rw [hid, wireBit_at _ (show q = 7 * 1 + (q - 7) by omega) (by omega)]
  interval_cases q <;> simp [idOf]

theorem byte_ext {a b : Byte} (hm : isHeader a = isHeader b) (h : ∀ m < 7, a.getLsbD (6 - m) = b.getLsbD (6 - m)) : a = b := by
  refine BitVec.eq_of_getLsbD_eq fun j hj => ?_
  by_cases h7 : j = 7
  · rw [h7]; exact hm
  · rw [show j = 6 - (6 - j) by omega]; exact h _ (by omega)

/-- Bytes that decode to the same frame and agree in the ignored bits of the last byte agree in every bit after the first
byte: those of the id, of the payload, and the ignored ones. -/
theorem wireBit_eq_of_decodeFrame {w w' : List Byte} {f : Frame} (h : decodeFrame w = .ok f) (h' : decodeFrame w' = .ok f)
    (hlast : ∀ j < ignoredBits f.kind f.dc,
      (w.getD (frameLen f.kind f.dc - 1) 0).getLsbD j = (w'.getD (frameLen f.kind f.dc - 1) 0).getLsbD j)
    {q : Nat} (h7 : 7 ≤ q) (hq : q < 7 * frameLen f.kind f.dc) : wireBit w q = wireBit w' q := by
  have hwf := wf_of_decodeFrame h
  have hcount := Frame.bit_count hwf
  obtain ⟨h1, h8, -⟩ := Frame.wf_iff.mp hwf
  have hign := ignoredBits_le f.kind f.dc h1 h8
  by_cases h13 : q < 13
  · rw [wireBit_of_decodeFrame_id h h7 h13, wireBit_of_decodeFrame_id h' h7 h13]
  · obtain ⟨j, rfl⟩ : ∃ j, q = 13 + j := ⟨q - 13, by omega⟩
    by_cases hj : j < 8 * f.payload.length
    · rw [← payloadBit_of_decodeFrame h hj, ← payloadBit_of_decodeFrame h' hj]
    · have hpos : 13 + j = 7 * (frameLen f.kind f.dc - 1) + (13 + j + 7 - 7 * frameLen f.kind f.dc) := by omega
      rw [wireBit_at w hpos (by omega), wireBit_at w' hpos (by omega)]
      exact hlast _ (by omega)

/-- Bytes of the wire shape that decode to the same frame and agree in the ignored bits of the last byte are the same. -/
theorem eq_of_decodeFrame {w w' : List Byte} {f : Frame} (hs : WireShaped w) (hs' : WireShaped w')
    (h : decodeFrame w = .ok f) (h' : decodeFrame w' = .ok f)
    (hlast : ∀ j < ignoredBits f.kind f.dc,
      (w.getD (frameLen f.kind f.dc - 1) 0).getLsbD j = (w'.getD (frameLen f.kind f.dc - 1) 0).getLsbD j) : w = w' := by
  have hlen := hs.length_of_decodeFrame h
  have hlen' := hs'.length_of_decodeFrame h'
  obtain ⟨-, hmark, -⟩ := wireShaped_iff_getD.mp hs
  obtain ⟨-, hmark', -⟩ := wireShaped_iff_getD.mp hs'
  refine List.ext_getElem (hlen.trans hlen'.symm) fun k hk hk' => ?_
  rw [← List.getD_eq_getElem w 0 hk, ← List.getD_eq_getElem w' 0 hk']
  by_cases h0 : k = 0
  · rw [h0, head_of_decodeFrame h, head_of_decodeFrame h']
  · refine byte_ext ((hmark k (by omega)).trans (hmark' k (by omega)).symm) fun m hm => ?_
    rw [← wireBit_at w rfl hm, ← wireBit_at w' rfl hm]
    exact wireBit_eq_of_decodeFrame h h' hlast (by omega) (by omega)

/-! ## The frame at the head of a byte list -/

/-- What `frameAtHead` finds: exactly the bytes of the wire shape the list begins with. -/
theorem frameAtHead_eq_ok {bs rest : List Byte} {f : Frame} {last : Byte} :
    frameAtHead bs = .ok (f, last, rest) ↔ ∃ w, bs = w ++ rest ∧ WireShaped w ∧ decodeFrame w = .ok f ∧
      last = w.getD (frameLen f.kind f.dc - 1) 0 := by
  constructor
  · intro h
    simp only [frameAtHead] at h
    split at h
    · cases h
    · rename_i hd
      cases h
      have hhead : (bs.take (frameLenH (bs.headD 0))).headD 0 = bs.headD 0 := by
        cases bs with
        | nil => simp
        | cons b bs =>
          obtain ⟨n, hn⟩ : ∃ n, frameLenH b = n + 1 := ⟨frameLenH b - 1, by have := frameLenH_bounds b; omega⟩
          simp [hn]
      have hn := frameLenH_of_decodeFrame hd
      refine ⟨_, (List.take_append_drop ..).symm,
        wireShaped_of_decodeFrame hd (by rw [hhead]; exact List.length_take_le ..), hd, ?_⟩
      rw [hhead] at hn
      have hlt : frameLenH (bs.headD 0) - 1 < frameLenH (bs.headD 0) := by have := frameLenH_bounds (bs.headD 0); omega
      simp only [← hn, List.getD_eq_getElem?_getD, List.getElem?_take, if_pos hlt]
  · rintro ⟨w, rfl, hs, hd, rfl⟩
    have hn := frameLenH_of_decodeFrame hd
    have hlen := hs.length_of_decodeFrame hd
    have hpos := frameLenH_bounds (w.headD 0)
    have hhead : (w ++ rest).headD 0 = w.headD 0 := by
      cases w with
      | nil => simp at hlen; omega
      | cons b w => rfl
    rw [frameAtHead, hhead, hn, ← hlen, List.take_left, hd, List.drop_left]
    simp only [List.getD_append _ _ _ _ (show w.length - 1 < w.length by omega)]

end Sys2Proof

/-! PROOFS. The rows of the opcode table on the wire (spec/30_encoding.md R50, R64): the two round trips and what follows from
them, the statements O1, O2, O3, O4 and O37. -/

namespace Sys2Proof

open Machine

/-! ## Rows and their operands -/

/-- A kind row is read back from its well-formed frame. -/
theorem Instr.ofFrame_frame {i : Instr} {o : FrameOperands} (h : i.frameOperands = some o) (hv : i.view = .kind)
    (hw : i.wf = true) : Instr.ofFrame o.frame = i := by
  cases i <;> cases hv <;> cases h
  case readRequest =>
    obtain ⟨-, -, hp, -⟩ := Frame.wf_iff.mp hw
    obtain rfl : _ = [] := hp rfl
    rfl
  all_goals rfl

theorem getLsbD_setWidth_extractLsb' (last : Byte) {n j : Nat} (hn : n ≤ 8) (hj : j < n) :
    ((last.extractLsb' 0 n).setWidth 8).getLsbD j = last.getLsbD j := by
  simp [hj, show j < 8 by omega]

/-- The ignored bits as an operand of a pattern row. -/
theorem extractLsb'_eq_of_getLsbD {last : Byte} {n : Nat} {pad : BitVec n} (hn : n ≤ 8)
    (h : ∀ j < n, last.getLsbD j = (pad.setWidth 8).getLsbD j) : last.extractLsb' 0 n = pad := by
  refine BitVec.eq_of_getLsbD_eq fun j hj => ?_
  simpa [hj, show j < 8 by omega] using h j hj

/-- A pattern row is read back from its frame and any last byte that carries its ignored bits (R57, R59, R64). -/
theorem Instr.ofPattern_frame {i : Instr} {o : FrameOperands} {last : Byte} (h : i.frameOperands = some o)
    (hv : i.view = .pattern) (hl : ∀ j < ignoredBits o.kind o.dc, last.getLsbD j = o.ignored.getLsbD j) :
    Instr.ofPattern o.frame last = i := by
  cases i <;> cases hv <;> (injection h with h; subst h)
  case readResponseDc1 | readResponseDc8 | writeRequestDc1 | writeRequestDc8 | executeRequestDc1 | executeRequestDc8 => rfl
  all_goals
    rename_i pad
    dsimp only at hl
    obtain rfl : last.extractLsb' 0 _ = pad :=
      extractLsb'_eq_of_getLsbD (by decide) fun j hj => hl j (hj.trans_eq (by decide))
    rfl

theorem map_getD_range {p : List Byte} {n : Nat} (h : p.length = n) : (List.range n).map (p.getD · 0) = p := by
  refine List.ext_getElem (by simp [h]) fun k _ hk => ?_
  rw [List.getElem_map, List.getElem_range, List.getD_eq_getElem _ _ hk]

/-- The operands of a well-formed frame's pattern row: the frame, and the ignored bits of its last byte. -/
theorem Instr.frameOperands_ofPattern {f : Frame} (h : f.wf = true) (last : Byte) :
    (Instr.ofPattern f last).frameOperands =
      some ⟨f.kind, f.id, f.dc, f.payload, (last.extractLsb' 0 (ignoredBits f.kind f.dc)).setWidth 8⟩ := by
  obtain ⟨h1, h8, hnone, hlen⟩ := Frame.wf_iff.mp h
  obtain ⟨k, id, dc, p⟩ := f
  dsimp only at *
  cases k
  case readRequest =>
    rw [hnone rfl]
    interval_cases dc <;> rfl
  all_goals
    -- the row's payload operands are the first `dc` bytes of the payload
    rw [← map_getD_range (hlen (by decide))]
    clear h hlen
    interval_cases dc <;> simp [ofPattern, frameOperands, ignoredBits, lenOf, List.range_succ]

theorem FrameOperands.frame_of_wf {f : Frame} (h : f.wf = true) (ignored : Byte) :
    FrameOperands.frame ⟨f.kind, f.id, f.dc, f.payload, ignored⟩ = f := by
  obtain ⟨-, -, hnone, -⟩ := Frame.wf_iff.mp h
  by_cases hk : f.kind = .readRequest
  · rw [FrameOperands.frame, if_pos hk, ← hnone hk]
  · rw [FrameOperands.frame, if_neg hk]

theorem Instr.wf_of_view {i : Instr} (h : i.view ≠ .kind) : i.wf = true := by
  cases i
  case readResponse | readRequest | writeRequest | executeRequest => exact absurd rfl h
  all_goals rfl

theorem Instr.frameOperands_of_view {i : Instr} (h : i.view ≠ .byte) : ∃ o, i.frameOperands = some o := by
  cases i
  case headerByte | continuationByte => exact absurd rfl h
  all_goals exact ⟨_, rfl⟩

/-! ## The round trips -/

/-- A frame row's wire bytes, whatever follows them, begin with its frame and its ignored bits. -/
theorem frameAtHead_wire {o : FrameOperands} (h : o.valid) (rest : List Byte) :
    frameAtHead (o.wire ++ rest) = .ok (o.frame, o.wire.getD (frameLen o.kind o.dc - 1) 0, rest) :=
  frameAtHead_eq_ok.mpr ⟨_, rfl, o.wireShaped_wire h, o.decodeFrame_wire h, rfl⟩

/-- Settles O1, view by view: the wire bytes hold the row's frame and its ignored bits, and these say which row it is. -/
theorem decodeOfEncodeIsIdentity : Obligations.DecodeOfEncodeIsIdentity := by
  intro i rest hw
  cases hv : i.view with
  | byte =>
    cases i <;> cases hv
    · simp [encode, decodeAs, decodeByte_headerByteOf]
    · simp [encode, decodeAs, decodeByte_continuationByteOf]
  | pattern =>
    obtain ⟨o, ho⟩ := i.frameOperands_of_view (by simp [hv])
    have h := Instr.valid_of_wf ho hw
    rw [encode_frameRow ho, decodeAs, frameAtHead_wire h]
    simp only [Instr.ofPattern_frame ho hv fun j => o.getLsbD_wire_last h]
  | kind =>
    obtain ⟨o, ho⟩ := i.frameOperands_of_view (by simp [hv])
    simp [encode_frameRow ho, decodeAs, frameAtHead_wire (Instr.valid_of_wf ho hw), Instr.ofFrame_frame ho hv hw]

/-- The pattern row of decoded bytes is encoded to these bytes: both decode to the frame and have the same ignored bits. -/
theorem encode_ofPattern {w : List Byte} {f : Frame} (hs : WireShaped w) (hd : decodeFrame w = .ok f) :
    encode (Instr.ofPattern f (w.getD (frameLen f.kind f.dc - 1) 0)) = w := by
  have hwf := wf_of_decodeFrame hd
  have ho := Instr.frameOperands_ofPattern hwf (w.getD (frameLen f.kind f.dc - 1) 0)
  obtain ⟨-, -, hview⟩ := Machine.frameOperands_ofPattern f (w.getD (frameLen f.kind f.dc - 1) 0)
  have h := valid_of_pattern ho hview
  have hign : ignoredBits f.kind f.dc ≤ 6 := FrameOperands.ignoredBits_le h
  have hdecode := FrameOperands.decodeFrame_wire h
  rw [FrameOperands.frame_of_wf hwf] at hdecode
  rw [encode_frameRow ho]
  exact eq_of_decodeFrame (FrameOperands.wireShaped_wire h) hs hdecode hd fun j hj =>
    (FrameOperands.getLsbD_wire_last h hj).trans (getLsbD_setWidth_extractLsb' _ (by omega) hj)

/-- Settles O2: a byte row is its one byte, and a pattern row is encoded to the bytes it was read from. -/
theorem encodeOfDecodeKeepsEveryBit : Obligations.EncodeOfDecodeKeepsEveryBit := by
  intro v bs rest i hv h
  cases v with
  | kind => exact absurd rfl hv
  | byte =>
    cases bs with
    | nil => cases h
    | cons b bs => cases h; rw [encode_decodeByte]; rfl
  | pattern =>
    simp only [decodeAs] at h
    split at h
    · cases h
    · rename_i hf
      cases h
      obtain ⟨w, rfl, hs, hd, rfl⟩ := frameAtHead_eq_ok.mp hf
      rw [encode_ofPattern hs hd]

/-- Settles O3, by running the decoder on each word. -/
theorem specWordsDecode : Obligations.SpecWordsDecode := by
  unfold Obligations.SpecWordsDecode
  decide

/-! ## The table's match bits -/

/-- The two header bytes under the table's mask: the marker and the kind code, and no marker in the second byte. -/
theorem header_and_mask (b0 : Byte) {b1 : Byte} (h : isHeader b1 = false) :
    (b0.setWidth 16 <<< 8 ||| b1.setWidth 16) &&& 0xE080#16 = (b0 &&& 0xE0#8).setWidth 16 <<< 8 := by
  have h7 : b1[7] = false := h
  apply BitVec.eq_of_getElem_eq; intro i hi
  interval_cases i <;> simp [h7]

theorem headerByteOf_and_kind (k : Kind) (d : BitVec 3) (i : BitVec 2) :
    headerByteOf k d i &&& 0xE0#8 = 0x80#8 ||| (k.code.setWidth 8 <<< 5) := by
  revert d i; cases k <;> decide

theorem headerByteOf_and_pattern (k : Kind) (d : BitVec 3) (i : BitVec 2) :
    headerByteOf k d i &&& 0xFC#8 = BitVec.ofNat 8 (0x80 + 32 * k.code.toNat + 4 * d.toNat) := by
  revert d i; cases k <;> decide

/-- Settles O4: the first wire byte is the header byte of the row's fields, and no other byte has the marker. -/
theorem frameRowMatchesTable : Obligations.FrameRowMatchesTable := by
  intro i o ho h
  have hs := o.wireShaped_wire h
  obtain ⟨-, hmark, -⟩ := wireShaped_iff_getD.mp hs
  rw [encode_frameRow ho]
  have ⟨h1, h8, _⟩ := h
  refine ⟨hs, o.length_wire h, ?_, ?_⟩ <;> rw [o.wire_head h, header0_eq_headerByteOf _ _ h1 h8]
  · rw [header_and_mask _ (hmark 1 (le_refl 1)), headerByteOf_and_kind]
    cases o.kind <;> rfl
  · rw [headerByteOf_and_pattern, BitVec.toNat_ofNat, Nat.mod_eq_of_lt (by omega)]

/-! ## What inputs bring -/

/-- A byte list is exactly one pattern row when it is the row's encoding, and only then. -/
theorem wholePattern_eq_some {i : Instr} (hv : i.view = .pattern) {bs : List Byte} :
    wholePattern bs = some i ↔ bs = encode i := by
  constructor
  · intro h
    rw [wholePattern] at h
    split at h
    · rename_i hd
      cases h
      simpa using (encodeOfDecodeKeepsEveryBit .pattern bs [] _ (by simp) hd).symm
    · cases h
  · rintro rfl
    have h := decodeOfEncodeIsIdentity i [] (i.wf_of_view (by simp [hv]))
    rw [hv, List.append_nil] at h
    rw [wholePattern, h]

/-- Settles O37: a byte row by O1, the pattern rows by both round trips. -/
theorem fetchReadsTheWire : Obligations.FetchReadsTheWire := by
  refine ⟨fun i b hb hv => ?_, fun i bs hv => ⟨wholePattern_eq_some hv, wholePattern_eq_some hv⟩,
    fun kind id dc payload i => ?_⟩
  · have h := decodeOfEncodeIsIdentity i [] (i.wf_of_view (by simp [hv]))
    rw [hv, hb] at h
    cases h; rfl
  · simp [fetch, eq_comm]

end Sys2Proof

/-! PROOFS. The results of an ENCODE call and the laws of its bytes (spec/40_encode.md R81, R82, R84, R90), and a step as the
operation its input names (D2): the statements O5, O6, O8 and O38. -/

namespace Sys2Proof

open Machine

/-! ## A step is the operation its input names -/

theorem view_of_wholePattern {bs : List Byte} {i : Instr} (h : wholePattern bs = some i) : i.view = .pattern := by
  simp only [wholePattern, decodeAs] at h
  split at h
  · rename_i hd
    split at hd
    · cases hd
    · rename_i f last _ _
      cases hd; cases h
      obtain ⟨-, -, hv⟩ := Machine.frameOperands_ofPattern f last
      exact hv
  · cases h

/-- Reading bytes as a pattern row and writing the row back loses none of them (R64). -/
@[simp] theorem rereadBytes_eq (bs : List Byte) : rereadBytes bs = bs := by
  rw [rereadBytes]
  split
  · rename_i i hw
    exact ((wholePattern_eq_some (view_of_wholePattern hw)).mp hw).symm
  · rfl

@[simp] theorem Machine.Input.reread_eq (c : Input) : c.reread = c := by
  cases c with
  | rxRun | decode => simp [Input.reread]
  | rxByte | encode | isHeader | frameLen | frameLenH | reset => rfl

/-- Settles O38: a step performs its input's operation on the bytes read back from the row they bring, which are the bytes
presented. -/
theorem stepPerformsTheOperation : Obligations.StepPerformsTheOperation := by
  intro s c later h
  rw [step_of_pending h, c.reread_eq, State.take]

/-! ## The answers of ENCODE -/

/-- TX runs the kind row of an ENCODE call's operands as that call. -/
theorem exec_ofFrame_tx {s : State} (h : s.agent = .tx) (f : Frame) :
    exec (Instr.ofFrame f) s = .next (s.transmit f.kind f.id f.dc f.payload) := by
  rw [exec_frameRow s (frameOperands_ofFrame f), State.frameStep_tx _ h]

theorem encodeFrame_dcRange (kind : Kind) (id : Byte) {dc : Nat} (payload : List Byte) (h : dc < 1 ∨ 8 < dc) :
    encodeFrame kind id dc payload = .err (.dcRange dc) :=
  if_pos h

theorem encodeFrame_payloadLength {kind : Kind} (id : Byte) {dc : Nat} {payload : List Byte} (h1 : 1 ≤ dc) (h8 : dc ≤ 8)
    (hk : kind ≠ .readRequest) (hp : payload.length ≠ dc) :
    encodeFrame kind id dc payload = .err (.payloadLength payload.length dc) := by
  rw [encodeFrame, if_neg (by simp [Config.dcMin, Config.dcMax]; omega), if_neg hk, if_pos hp]

/-- ENCODE of a ReadRequest, whatever its payload (R84). -/
theorem encodeFrame_readRequest (id : Byte) {dc : Nat} (payload : List Byte) (h1 : 1 ≤ dc) (h8 : dc ≤ 8) :
    encodeFrame .readRequest id dc payload = .ok [header0 .readRequest dc id, header1 id] :=
  encodeFrame_valid ⟨.readRequest, id, dc, payload, 0⟩ ⟨h1, h8, fun hk => absurd rfl hk, by simp⟩

/-- The second header byte as a number (R83). -/
theorem header1_eq_ofNat (id : Byte) : header1 id = BitVec.ofNat 8 (2 * (id.toNat % 64)) := by
  revert id; decide

theorem header0_eq_ofNat (k : Kind) (id : Byte) {dc : Nat} (h1 : 1 ≤ dc) (h8 : dc ≤ 8) :
    header0 k dc id = BitVec.ofNat 8 (128 + 32 * k.code.toNat + 4 * (dc - 1) + id.toNat / 64) := by
  rw [← toNat_header0 k id h1 h8, BitVec.ofNat_toNat, BitVec.setWidth_eq]

/-- Settles O5: the data count is checked first. -/
theorem encodeRejectsDataCount : Obligations.EncodeRejectsDataCount := by
  intro kind id dc payload s hs hdc
  rw [exec_ofFrame_tx hs, State.transmit, encodeFrame_dcRange kind id payload hdc]

/-- Settles O6, by the answer of ENCODE for each of the two sorts of kind. -/
theorem encodeChecksPayloadLength : Obligations.EncodeChecksPayloadLength := by
  intro kind id dc payload s hs h1 h8
  rw [exec_ofFrame_tx hs, State.transmit]
  constructor
  · intro hk hp
    rw [encodeFrame_payloadLength id h1 h8 hk hp]
  · rintro rfl
    rw [encodeFrame_readRequest id payload h1 h8, header0_eq_ofNat _ id h1 h8, header1_eq_ofNat]
    rfl

/-! ## The laws of ENCODE's bytes -/

/-- ENCODE's bytes are the wire bytes of its operands with no ignored bit set. -/
theorem FrameOperands.wire_of_encodeFrame {k : Kind} {id : Byte} {dc : Nat} {p w : List Byte}
    (h : encodeFrame k id dc p = .ok w) : wire ⟨k, id, dc, p, 0⟩ = w := by
  have hor : (fun x : Byte => x ||| 0) = fun x => x := funext fun _ => BitVec.or_zero
  simp only [wire, h, hor]
  exact List.modify_id ..

/-- DECODE gives back the frame of ENCODE's operands (R111). -/
theorem decodeFrame_of_encodeFrame {k : Kind} {id : Byte} {dc : Nat} {p w : List Byte}
    (h : encodeFrame k id dc p = .ok w) : decodeFrame w = .ok (FrameOperands.frame ⟨k, id, dc, p, 0⟩) := by
  rw [← FrameOperands.decodeFrame_wire (valid_of_encodeFrame h), FrameOperands.wire_of_encodeFrame h]

/-- ENCODE is injective, but for the payload of a ReadRequest (R90): DECODE gives the frame back. -/
theorem encodeFrame_inj {k k' : Kind} {id id' : Byte} {dc dc' : Nat} {p p' w : List Byte}
    (h : encodeFrame k id dc p = .ok w) (h' : encodeFrame k' id' dc' p' = .ok w) :
    k' = k ∧ id' = id ∧ dc' = dc ∧ (k ≠ .readRequest → p' = p) := by
  have he := (decodeFrame_of_encodeFrame h').symm.trans (decodeFrame_of_encodeFrame h)
  injection he with he
  injection he with hk hid hdc hp
  dsimp only at hk hid hdc hp
  subst hk
  refine ⟨rfl, hid, hdc, fun hne => ?_⟩
  rwa [if_neg hne, if_neg hne] at hp

/-- ENCODE leaves the ignored bits of its last byte zero (R60, R61). -/
theorem getLsbD_encodeFrame_last {k : Kind} {id : Byte} {dc : Nat} {p w : List Byte} (h : encodeFrame k id dc p = .ok w)
    {j : Nat} (hj : j < ignoredBits k dc) : (w.getD (frameLen k dc - 1) 0).getLsbD j = false := by
  have hlast := FrameOperands.getLsbD_wire_last (valid_of_encodeFrame h) hj
  rw [FrameOperands.wire_of_encodeFrame h] at hlast
  exact hlast.trans BitVec.getLsbD_zero

/-- Settles O8: ENCODE's bytes have the wire shape, its ignored bits are zero, and DECODE tells its operands apart. -/
theorem encodeLaws : Obligations.EncodeLaws := by
  intro kind id dc payload w h
  have hv := valid_of_encodeFrame h
  obtain ⟨hfirst, hmark, -⟩ := wireShaped_iff_getD.mp (wireShaped_of_encodeFrame h)
  obtain ⟨hlen, -⟩ := encodeFrame_bytes _ hv w h
  obtain ⟨h2, h11⟩ := FrameOperands.frameLen_bounds hv
  refine ⟨hfirst, hmark, hlen, hlen ▸ h2, hlen ▸ h11, fun hk => ?_, fun j hj => ?_, fun _ _ _ _ => encodeFrame_inj h⟩
  · rw [hlen, frameLen, if_pos hk, Config.hdrLen]
  · rw [hlen]; exact getLsbD_encodeFrame_last h hj

end Sys2Proof

/-! PROOFS. The answers of DECODE and of the helper functions (spec/41_decode.md R108 to R112): the statements O9, O11, O12,
O13 and O14. -/

namespace Sys2Proof

open Machine

/-! ## DECODE inverts ENCODE -/

/-- Settles O11: operands in range are valid, so ENCODE answers bytes, and DECODE of these is the operands' frame. -/
theorem decodeInvertsEncode : Obligations.DecodeInvertsEncode := by
  intro kind id dc payload h1 h8 hp
  have hw := encodeFrame_valid ⟨kind, id, dc, payload, 0⟩ ⟨h1, h8, fun _ => hp, by simp⟩
  exact ⟨_, hw, decodeFrame_of_encodeFrame hw⟩

/-- Settles O12: a frame row moved by DEC is the DECODE of its wire bytes, which hold its frame. -/
theorem decodeReturnsTheFrame : Obligations.DecodeReturnsTheFrame := by
  intro i o s hi h hs
  rw [exec_frameRow s hi, State.frameStep_dec o hs, State.decodeCall, o.decodeFrame_wire h]

/-! ## A DECODE call on any bytes -/

/-- The least marker, as the first position of the list, counted from `k`, at which `p` finds one. -/
theorem firstMarker_eq_find? {k : Nat} {l : List Byte} {p : Nat → Bool}
    (hp : ∀ j < l.length, p (k + j) = isHeader (l.getD j 0)) :
    firstMarker k l = (List.range' k l.length).find? p := by
  induction l generalizing k with
  | nil => rfl
  | cons b l ih =>
    have h0 : p k = isHeader b := hp 0 (by simp)
    have hrest := ih (k := k + 1) fun j hj => by
      rw [Nat.add_assoc, Nat.add_comm 1 j, hp (j + 1) (by simpa using hj), List.getD_cons_succ]
    rw [firstMarker, hrest, List.length_cons, List.range'_succ, List.find?_cons, h0]
    cases isHeader b <;> rfl

/-- The search of R105: the least marker behind the two header bytes, the whole list's positions counted. -/
theorem firstMarker_two_eq_find? (b0 b1 : Byte) (tail : List Byte) :
    firstMarker 2 tail = (List.range (b0 :: b1 :: tail).length).find?
      (fun k => decide (2 ≤ k) && isHeader ((b0 :: b1 :: tail).getD k 0)) := by
  rw [List.range_eq_range', List.length_cons, List.length_cons, List.range'_succ, List.range'_succ]
  exact firstMarker_eq_find? fun j _ => by simp [Nat.add_comm 2 j]

/-- Settles O9: fewer than two bytes are SHORT, and for two or more DECODE's checks are those of R108 in its order. -/
theorem decodeCallAnswersFirstMatch : Obligations.DecodeCallAnswersFirstMatch := by
  intro s bs later h
  refine ⟨_, step_of_pending h, ?_⟩
  rw [Input.reread_eq, perform, State.decodeCall, State.take]
  congr 3
  match bs with
  | [] => rfl
  | [_] => rfl
  | b0 :: b1 :: tail =>
    rw [← firstMarker_two_eq_find?]
    simp only [decodeFrame, decodeFrameWith]
    cases firstMarker 2 tail <;> simp [Config.rrStrictLength]

/-! ## ENCODE of a decoded frame -/

/-- Bytes after the second take no part in the DECODE of a ReadRequest (R103). -/
theorem decodeFrame_readRequest {b0 b1 : Byte} (h0 : isHeader b0 = true) (h1 : isHeader b1 = false)
    (hk : kindOf b0 = .readRequest) (tail : List Byte) :
    decodeFrame (b0 :: b1 :: tail) = .ok ⟨.readRequest, idOf b0 b1, dcOf b0, []⟩ := by
  simp [decodeFrame, decodeFrameWith, Config.rrStrictLength, h0, h1, hk]

/-- DECODE reads a frame from the first FRAMELEN bytes alone: only a ReadRequest can have more. -/
theorem decodeFrame_take {bs : List Byte} {f : Frame} (h : decodeFrame bs = .ok f) :
    decodeFrame (bs.take (frameLen f.kind f.dc)) = .ok f := by
  obtain ⟨b0, b1, tail, rfl, h0, h1, hfk, -, -, ⟨hk, -⟩ | ⟨-, hs, -⟩⟩ := decodeFrame_ok h
  · rw [hfk, frameLen, if_pos hk, ← h, decodeFrame_readRequest h0 h1 hk]
    exact decodeFrame_readRequest h0 h1 hk []
  · rwa [List.take_of_length_le (hs.length_of_decodeFrame h).le]

/-- The first FRAMELEN bytes of what DECODE read a frame from are the wire bytes of the frame with some ignored bits. -/
theorem exists_wire_of_decodeFrame {bs : List Byte} {f : Frame} (h : decodeFrame bs = .ok f) :
    ∃ ignored, FrameOperands.valid ⟨f.kind, f.id, f.dc, f.payload, ignored⟩ ∧
      bs.take (frameLen f.kind f.dc) = FrameOperands.wire ⟨f.kind, f.id, f.dc, f.payload, ignored⟩ := by
  have hd := decodeFrame_take h
  have hs : WireShaped (bs.take (frameLen f.kind f.dc)) :=
    wireShaped_of_decodeFrame hd (by rw [frameLenH_of_decodeFrame hd]; exact List.length_take_le ..)
  have hrow := encode_ofPattern hs hd
  generalize (bs.take (frameLen f.kind f.dc)).getD (frameLen f.kind f.dc - 1) 0 = last at hrow
  have ho := Instr.frameOperands_ofPattern (wf_of_decodeFrame h) last
  obtain ⟨-, -, hview⟩ := Machine.frameOperands_ofPattern f last
  exact ⟨_, valid_of_pattern ho hview, by rw [← encode_frameRow ho, hrow]⟩

/-- Shifting the low `n` bits out and back undoes putting bits where a byte had none. -/
theorem shiftLeft_ushiftRight_or_eq {x m : Byte} {n : Nat} (hx : ∀ j < n, x.getLsbD j = false) (hm : m.toNat < 2 ^ n) :
    ((x ||| m) >>> n) <<< n = x := by
  refine BitVec.eq_of_getLsbD_eq fun j hj => ?_
  rw [BitVec.getLsbD_shiftLeft, BitVec.getLsbD_ushiftRight]
  by_cases hjn : j < n
  · simp [hjn, hx j hjn]
  · rw [show n + (j - n) = j by omega, BitVec.getLsbD_or, getLsbD_of_toNat_lt hm (by omega)]
    simp [hj, hjn]

/-- Clearing the ignored bits of a frame row's last wire byte gives ENCODE's bytes (R60, R61). -/
theorem FrameOperands.encodeFrame_eq_wire_modify {o : FrameOperands} (h : o.valid) :
    encodeFrame o.kind o.id o.dc o.payload = .ok (o.wire.modify (frameLen o.kind o.dc - 1)
      (fun b => (b >>> ignoredBits o.kind o.dc) <<< ignoredBits o.kind o.dc)) := by
  obtain ⟨w, hw, hlen, -⟩ := o.exists_wire h
  obtain ⟨-, -, -, hign⟩ := h
  have hlast := fun j (hj : j < ignoredBits o.kind o.dc) => getLsbD_encodeFrame_last hw hj
  simp only [wire, hw, hlen]
  congr 1
  refine List.ext_getElem (by simp) fun k hk _ => ?_
  simp only [List.getElem_modify]
  split
  · rename_i e
    rw [e, List.getD_eq_getElem _ _ hk] at hlast
    exact (shiftLeft_ushiftRight_or_eq hlast hign).symm
  · rfl

/-- ENCODE does not examine the payload of a ReadRequest (R84): the frame of its operands encodes as they do. -/
theorem FrameOperands.encodeFrame_frame (o : FrameOperands) :
    encodeFrame o.kind o.id o.dc o.frame.payload = encodeFrame o.kind o.id o.dc o.payload := by
  by_cases hk : o.kind = .readRequest
  · simp only [encodeFrame, if_pos hk]
  · rw [frame_payload hk]

/-- Settles O13: the bytes DECODE read are the frame's wire bytes with some ignored bits, and ENCODE's own bytes decode to
the frame of its operands. -/
theorem reencodeClearsIgnoredBits : Obligations.ReencodeClearsIgnoredBits := by
  intro bs f h
  constructor
  · obtain ⟨ignored, hv, hwire⟩ := exists_wire_of_decodeFrame h
    rw [hwire]
    exact FrameOperands.encodeFrame_eq_wire_modify hv
  · intro kind id dc payload hw
    obtain rfl : FrameOperands.frame ⟨kind, id, dc, payload, 0⟩ = f := by
      simpa [decodeFrame_of_encodeFrame hw] using h
    exact (FrameOperands.encodeFrame_frame ⟨kind, id, dc, payload, 0⟩).trans hw

/-! ## The helper functions -/

/-- The marker test as a number (R109). -/
theorem isHeader_eq_decide (b : Byte) : isHeader b = decide (128 ≤ b.toNat) := by
  revert b; decide

/-- The length a header byte predicts, its fields read as numbers (R51, R110). -/
theorem frameLenH_eq (b : Byte) :
    frameLenH b = if b.toNat / 32 % 4 = 1 then 2 else (8 * (b.toNat / 4 % 8 + 1) + 5) / 7 + 2 := by
  revert b; decide

/-- Settles O14, call by call. -/
theorem helperCallsAnswer : Obligations.HelperCallsAnswer := by
  intro s b kind dcm1 later
  refine ⟨fun h => ?_, fun h => ?_, fun h => ?_⟩ <;> rw [step_of_pending h]
  · rw [← isHeader_eq_decide]; rfl
  · rfl
  · rw [← frameLenH_eq]; rfl

end Sys2Proof

/-! PROOFS. The receive synchronizer (spec/42_rx_sync.md R120 to R137): what one byte does by rule, what the receiver has
after the bytes of a frame or of a part of one, from any state, and the statements O15 to O20, O23, O25, O26, O28, O29, O30
and O33. -/

namespace Sys2Proof.Machine

/-! ## RXRUN over two lists -/

theorem rxRun_append (r : RxState) (xs ys : List Byte) :
    rxRun r (xs ++ ys) = ((rxRun (rxRun r xs).1 ys).1, (rxRun r xs).2 ++ (rxRun (rxRun r xs).1 ys).2) := by
  induction xs generalizing r with
  | nil => rfl
  | cons b xs ih => rw [List.cons_append, rxRun_cons, rxRun_cons, ih, List.append_assoc]

/-- Settles O26: RXRUN by its equations, and the split by induction on the first pass. -/
theorem rxRunComposes : Obligations.RxRunComposes := by
  intro r xs ys
  refine ⟨rfl, fun b => ?_, rxRun_append r xs ys⟩
  rw [rxRun_cons]
  cases (rxByte r b).2 <;> rfl

/-! ## A frame's bytes, from any receiver -/

/-- `q`'s buffer is `r`'s with the bytes `w` in its first entries. -/
def RxState.WrittenFirst (r q : RxState) (w : List Byte) : Prop :=
  ∀ k, q.entry k = if k < w.length then w[k]? else r.entry k

theorem RxState.WrittenAt.writtenFirst_singleton {r q : RxState} {b : Byte} (h : r.WrittenAt q 0 b) :
    r.WrittenFirst q [b] := by
  intro k
  rw [h k, List.length_singleton]
  cases k <;> simp

theorem RxState.WrittenFirst.snoc {r q q' : RxState} {w : List Byte} {b : Byte} (h : r.WrittenFirst q w)
    (hb : q.WrittenAt q' w.length b) : r.WrittenFirst q' (w ++ [b]) := by
  intro k
  rw [hb k, h k, List.length_append, List.length_singleton]
  obtain hk | rfl | hk := lt_trichotomy k w.length
  · rw [if_neg hk.ne, if_pos hk, if_pos (by omega), List.getElem?_append_left hk]
  · simp
  · rw [if_neg hk.ne', if_neg (by omega), if_neg (by omega)]

theorem RxState.WrittenFirst.contents {r q : RxState} {w : List Byte} (h : r.WrittenFirst q w) :
    q.contents w.length = w := by
  refine List.ext_getElem? fun k => ?_
  have hk := h k
  by_cases hlt : k < w.length
  · rw [if_pos hlt] at hk
    simpa [RxState.contents, hlt, RxState.entry] using hk
  · simp [RxState.contents, hlt]

theorem RxState.WrittenFirst.expectedLen {r q : RxState} {b0 : Byte} {tail : List Byte}
    (h : r.WrittenFirst q (b0 :: tail)) : q.expectedLen = frameLenH b0 := by
  have h0 : q.buf[0] = b0 := by simpa [RxState.entry] using h 0
  rw [RxState.expectedLen, h0]

/-- A header byte and continuation bytes, fewer than the header predicts, are collected from any receiver (R121, R124):
nothing is emitted, and the bytes stand in the first entries. -/
theorem rxRun_collects (r : RxState) {b0 : Byte} (h0 : isHeader b0 = true) {tail : List Byte}
    (ht : ∀ b ∈ tail, isHeader b = false) (hlen : (b0 :: tail).length < frameLenH b0) :
    (rxRun r (b0 :: tail)).2 = [] ∧ (rxRun r (b0 :: tail)).1.cnt.toNat = (b0 :: tail).length ∧
      r.WrittenFirst (rxRun r (b0 :: tail)).1 (b0 :: tail) := by
  induction tail using List.reverseRecOn with
  | nil =>
    rw [rxRun_single, rxByte_header r b0 h0]
    exact ⟨rfl, rfl, (r.store_written 1 0 b0 (by omega)).writtenFirst_singleton⟩
  | append_singleton tail b ih =>
    obtain ⟨ht, hb⟩ := List.forall_mem_append.mp ht
    rw [← List.cons_append, List.length_append, List.length_singleton] at *
    obtain ⟨hout, hcnt, hw⟩ := ih ht (by omega)
    rw [rxRun_append, hout]
    generalize (rxRun r (b0 :: tail)).1 = q at *
    have h11 := (frameLenH_bounds b0).2
    have h1 : 1 ≤ (b0 :: tail).length := by simp
    rw [rxRun_single, rxByte_collect q b (hb b (by simp)) (by omega) (by omega),
      if_neg (by rw [hw.expectedLen]; omega)]
    refine ⟨rfl, by rw [cnt_toNat_succ _ (by omega), hcnt], hw.snoc ?_⟩
    rw [← hcnt]
    exact q.store_written _ _ b (by omega)

/-- Bytes of the wire shape are received as one completed frame from any receiver (R126, R132): what DECODE makes of them is
emitted, the receiver is in AwaitHeader, and the bytes stand in the first entries. -/
theorem rxRun_wireShaped (r : RxState) {w : List Byte} (h : WireShaped w) :
    (rxRun r w).2 = (frameOf w).toList ∧ (rxRun r w).1.cnt = 0 ∧ r.WrittenFirst (rxRun r w).1 w := by
  obtain ⟨h0, ht, hlen⟩ := h
  obtain _ | ⟨b0, tail⟩ := w
  · cases h0
  rw [List.headD_cons] at h0 hlen
  have hbounds := frameLenH_bounds b0
  obtain rfl | ⟨init, b, rfl⟩ := tail.eq_nil_or_concat
  · simp at hlen; omega
  rw [List.concat_eq_append] at *
  obtain ⟨ht, hb⟩ := List.forall_mem_append.mp ht
  rw [← List.cons_append, List.length_append, List.length_singleton] at *
  obtain ⟨hout, hcnt, hw⟩ := rxRun_collects r h0 ht (by omega)
  rw [rxRun_append, hout]
  generalize (rxRun r (b0 :: init)).1 = q at *
  have h1 : 1 ≤ (b0 :: init).length := by simp
  rw [rxRun_single, rxByte_collect q b (hb b (by simp)) (by omega) (by omega),
    if_pos (by rw [hw.expectedLen]; omega), hcnt, hw.contents]
  exact ⟨rfl, rfl, hw.snoc (q.store_written _ _ b (by omega))⟩

theorem frameOf_eq_some {bs : List Byte} {f : Frame} : frameOf bs = some f ↔ decodeFrame bs = .ok f := by
  rw [frameOf]
  split <;> simp [*]

theorem frameOf_of_err {bs : List Byte} {e : MalformedError} (h : decodeFrame bs = .err e) : frameOf bs = none := by
  rw [frameOf, h]

/-- The wire bytes of a frame row are received as its frame from any receiver (R132). -/
theorem rxRun_wire (r : RxState) {o : FrameOperands} (h : o.valid) :
    (rxRun r o.wire).2 = [o.frame] ∧ (rxRun r o.wire).1.cnt = 0 ∧ r.WrittenFirst (rxRun r o.wire).1 o.wire := by
  have hw := rxRun_wireShaped r (o.wireShaped_wire h)
  rwa [frameOf_eq_some.mpr (o.decodeFrame_wire h)] at hw

/-- Settles O29: a frame row moved by RX is the reception of its wire bytes, which have the wire shape and hold its frame. -/
theorem receptionEmitsTheFrame : Obligations.ReceptionEmitsTheFrame := by
  intro i o s hi h hs
  obtain ⟨hout, hcnt, hw⟩ := rxRun_wire s.rx h
  refine ⟨s.receive o.wire, ?_, ?_, hcnt, ?_⟩
  · rw [exec_frameRow s hi, State.frameStep_rx o hs]
  · rw [State.receive, hout]
  · rw [encode_frameRow hi]
    exact hw

/-- Settles O30: ENCODE's bytes are received as their frame from any receiver, so also from the one any bytes before them
leave. -/
theorem encodedFrameResynchronizes : Obligations.EncodedFrameResynchronizes := by
  intro kind id dc payload w h
  have hreceived (r : RxState) := rxRun_wire r (valid_of_encodeFrame h)
  rw [FrameOperands.wire_of_encodeFrame h] at hreceived
  refine ⟨fun r => ?_, fun before hbefore => ?_⟩
  · obtain ⟨hout, hcnt, -⟩ := hreceived r
    exact ⟨hcnt, hout⟩
  · obtain ⟨hout, -⟩ := hreceived (rxRun RxState.reset before).1
    rw [rxRun_append, hbefore, hout]
    rfl

/-- A proper part of a frame's bytes emits nothing. -/
theorem rxRun_take_wireShaped (r : RxState) {w : List Byte} (h : WireShaped w) {n : Nat} (h1 : 1 ≤ n)
    (hn : n < w.length) : (rxRun r (w.take n)).2 = [] := by
  obtain ⟨h0, ht, hlen⟩ := h
  obtain _ | ⟨b0, tail⟩ := w
  · simp at hn
  obtain ⟨m, rfl⟩ := Nat.exists_eq_add_of_le' h1
  rw [List.headD_cons] at h0 hlen
  rw [List.take_succ_cons]
  refine (rxRun_collects r h0 (fun b hb => ht b (List.mem_of_mem_take hb)) ?_).1
  rw [← hlen, ← List.take_succ_cons, List.length_take]
  omega

/-- Settles O33: the first frame's part emits nothing, and the second frame is received from whatever receiver it leaves. -/
theorem truncatedFrameAbandoned : Obligations.TruncatedFrameAbandoned := by
  intro r o p n ho hp h1 hn
  obtain ⟨hout, hcnt, -⟩ := rxRun_wire (rxRun r (o.wire.take n)).1 hp
  rw [rxRun_append, rxRun_take_wireShaped r (o.wireShaped_wire ho) h1 hn, hout]
  exact ⟨rfl, hcnt⟩

/-! ## One byte, rule by rule -/

/-- Settles O15, by rule 1. -/
theorem headerByteRestartsCollection : Obligations.HeaderByteRestartsCollection := by
  intro kind dcm1 idHi s
  refine ⟨_, exec_headerByte kind dcm1 idHi s, ?_⟩
  rw [State.byteStep, rxByte_header _ _ (isHeader_headerByteOf kind dcm1 idHi), ← toNat_headerByteOf,
    BitVec.ofNat_toNat, BitVec.setWidth_eq]
  exact ⟨by simp, rfl, s.rx.store_written 1 0 _ (by omega)⟩

/-- A continuation byte's row is what RXBYTE makes of the byte. -/
theorem exec_continuationByte_of_rxByte {rest : BitVec 7} {s : State} {q : RxState} {e : Option Frame}
    (h : rxByte s.rx (rest.setWidth 8) = (q, e)) :
    exec (.continuationByte rest) s = .next { s with rx := q, emitted := s.emitted ++ e.toList } := by
  rw [exec_continuationByte, State.byteStep, continuationByteOf, h]

/-- Settles O16, by rule 2. -/
theorem unsynchronizedByteDiscarded : Obligations.UnsynchronizedByteDiscarded := by
  intro rest s h
  rw [exec_continuationByte_of_rxByte (rxByte_unsync _ _ (isHeader_continuationByteOf rest) h)]
  simp

/-- Settles O17, by rule 3. -/
theorem overflowDropsPartialFrame : Obligations.OverflowDropsPartialFrame := by
  intro rest s h
  rw [exec_continuationByte_of_rxByte (rxByte_overflow _ _ (isHeader_continuationByteOf rest) h)]
  simp

/-- Settles O18, by rule 4 without completion. -/
theorem continuationByteStored : Obligations.ContinuationByteStored := by
  intro rest s h1 h10 hl
  have hr := rxByte_collect s.rx _ (isHeader_continuationByteOf rest) h1 h10
  rw [if_neg hl] at hr
  exact ⟨_, exec_continuationByte_of_rxByte hr, by simp, cnt_toNat_succ _ h10,
    s.rx.store_written _ _ _ (by omega)⟩

/-- Rule 4 with completion, as a step of the machine (R126 to R128): the byte is stored, the counter is cleared, and what
DECODE makes of the collected bytes is emitted. -/
theorem exec_continuationByte_completes {rest : BitVec 7} {s : State} (h1 : 1 ≤ s.rx.cnt.toNat)
    (h10 : s.rx.cnt.toNat ≤ 10) (hl : s.rx.cnt.toNat + 1 = s.rx.expectedLen) : ∃ t : State,
      exec (.continuationByte rest) s = .next t ∧
        t = { s with
          rx := t.rx
          emitted := s.emitted ++ (frameOf (s.rx.contents s.rx.cnt.toNat ++ [rest.setWidth 8])).toList } ∧
        t.rx.cnt = 0 ∧ s.rx.WrittenAt t.rx s.rx.cnt.toNat (rest.setWidth 8) := by
  have hr := rxByte_collect s.rx _ (isHeader_continuationByteOf rest) h1 h10
  rw [if_pos hl] at hr
  exact ⟨_, exec_continuationByte_of_rxByte hr, rfl, rfl, s.rx.store_written _ _ _ (by omega)⟩

/-- Settles O20: what completes is emitted only where DECODE accepts it. -/
theorem rejectedFrameSwallowed : Obligations.RejectedFrameSwallowed := by
  intro rest s e h1 h10 hl he
  obtain ⟨t, hexec, ht, hcnt, hw⟩ := exec_continuationByte_completes (rest := rest) h1 h10 hl
  rw [frameOf_of_err he, Option.toList_none, List.append_nil] at ht
  exact ⟨t, hexec, ht, hcnt, hw⟩

/-! ## What the receiver's invariants give -/

theorem RxState.getD_contents (r : RxState) {n k : Nat} (hk : k < n) (h : n ≤ 11) :
    (r.contents n).getD k 0 = r.buf[k] := by
  rw [List.getD_eq_getElem _ _ (by rw [r.length_contents n h]; exact hk)]
  simp [RxState.contents]

/-- Under the invariants the bytes a continuation byte completes have the wire shape (R131). -/
theorem RxState.Inv.wireShaped {r : RxState} (h : r.Inv) {b : Byte} (hb : isHeader b = false) (h1 : 1 ≤ r.cnt.toNat)
    (hl : r.cnt.toNat + 1 = r.expectedLen) : WireShaped (r.contents r.cnt.toNat ++ [b]) := by
  obtain ⟨h10, hmarked, -⟩ := h
  obtain ⟨hfirst, hrest⟩ := hmarked h1
  have hlen := r.length_contents r.cnt.toNat (by omega)
  have hcollected : ∀ k, (hk : k < r.cnt.toNat) → (r.contents r.cnt.toNat ++ [b]).getD k 0 = r.buf[k] := fun k hk => by
    rw [List.getD_append _ _ _ _ (by omega), r.getD_contents hk (by omega)]
  refine wireShaped_iff_getD.mpr ⟨?_, fun k hk => ?_, ?_⟩
  · rw [hcollected 0 h1, hfirst]
  · obtain hlt | rfl | hgt := lt_trichotomy k r.cnt.toNat
    · rw [hcollected k hlt]
      exact hrest ⟨k, by omega⟩ hk hlt
    · rwa [List.getD_append_right _ _ _ _ hlen.le, hlen, Nat.sub_self]
    · rw [List.getD_eq_default _ _ (by rw [List.length_append, hlen]; exact hgt)]
      exact isHeader_zero
  · rw [hcollected 0 h1, List.length_append, hlen]
    exact hl

/-- Under the invariants every completion has a frame (R131). -/
theorem RxState.Inv.exists_decodeFrame {r : RxState} (h : r.Inv) {b : Byte} (hb : isHeader b = false)
    (h1 : 1 ≤ r.cnt.toNat) (hl : r.cnt.toNat + 1 = r.expectedLen) :
    ∃ f, decodeFrame (r.contents r.cnt.toNat ++ [b]) = .ok f := by
  obtain ⟨f, hf, -⟩ := decodeFrame_of_shape (h.wireShaped hb h1 hl)
  exact ⟨f, hf⟩

/-- Settles O19: the step completes, and under the invariants DECODE accepts what was collected. -/
theorem lastByteEmitsTheFrame : Obligations.LastByteEmitsTheFrame := by
  intro rest s h h1 hl
  obtain ⟨f, hf⟩ := h.exists_decodeFrame (b := rest.setWidth 8) (isHeader_continuationByteOf rest) h1 hl
  have ⟨h10, _⟩ := h
  obtain ⟨t, hexec, ht, hcnt, hw⟩ := exec_continuationByte_completes (rest := rest) h1 h10 hl
  rw [frameOf_eq_some.mpr hf] at ht
  exact ⟨t, f, hexec, hf, ht, hcnt, hw⟩

/-- Under the invariants DECODE rejects nothing that a continuation byte completes (R131). -/
theorem RxState.Inv.storeSwallows_eq_false {r : RxState} (h : r.Inv) {b : Byte} (hb : isHeader b = false)
    (h1 : 1 ≤ r.cnt.toNat) : r.storeSwallows b = false := by
  have ⟨h10, _⟩ := h
  have hlen := r.length_contents r.cnt.toNat (by omega)
  simp only [RxState.storeSwallows, List.length_append, List.length_singleton, hlen, Bool.and_eq_false_imp,
    decide_eq_true_eq, decide_eq_false_iff_not]
  intro hl
  obtain ⟨f, hf⟩ := h.exists_decodeFrame hb h1 hl
  simp [frameOf_eq_some.mpr hf]

/-- Under the invariants only two of the four drops of R173 are left (R131, R133). -/
theorem RxState.Inv.rxDrop_eq {r : RxState} (h : r.Inv) (b : Byte) :
    rxDrop r b = if isHeader b then (if r.cnt = 0 then none else some .abortByHeader)
      else if r.cnt = 0 then some .discardUnsync else none := by
  have ⟨h10, _⟩ := h
  cases hb : isHeader b with
  | true => simp [rxDrop, hb]
  | false =>
    by_cases hc : r.cnt = 0
    · simp [rxDrop, hb, hc]
    · have h1 : 1 ≤ r.cnt.toNat := Nat.one_le_iff_ne_zero.mpr (mt (cnt_toNat_eq_zero _).mp hc)
      have hguard : ¬ Config.ovfGuard ≤ r.cnt.toNat := Nat.not_le_of_lt (Nat.lt_succ_of_le h10)
      simp [rxDrop, hb, hguard, h.storeSwallows_eq_false hb h1]

/-- Settles O23: the drops left under the invariants are the other two. -/
theorem overflowAndSwallowNeverHappen : Obligations.OverflowAndSwallowNeverHappen := by
  intro r b h
  rw [h.rxDrop_eq b]
  split_ifs <;> simp

/-- Only a completion emits, and it emits the DECODE of the collected bytes (R126, R127). -/
theorem rxByte_emits {r : RxState} {b : Byte} {f : Frame} (h : (rxByte r b).2 = some f) :
    isHeader b = false ∧ 1 ≤ r.cnt.toNat ∧ r.cnt.toNat + 1 = r.expectedLen ∧
      decodeFrame (r.contents r.cnt.toNat ++ [b]) = .ok f ∧ (rxByte r b).1.cnt = 0 := by
  obtain ⟨-, e⟩ | ⟨-, -, e⟩ | ⟨-, -, e⟩ | ⟨hb, h1, -, hl, e⟩ | ⟨-, -, -, -, e⟩ := rxByte_cases r b <;> rw [e] at h
  case inr.inr.inr.inl => exact ⟨hb, h1, hl, frameOf_eq_some.mp h, by rw [e]⟩
  all_goals cases h

/-- Settles O25: a frame is emitted by a completion, of bytes that have the wire shape and are the last consumed (INV4). -/
theorem emittedFrameIsTheLastBytes : Obligations.EmittedFrameIsTheLastBytes := by
  intro r b consumed f h htracks he
  obtain ⟨hb, h1, hl, hd, -⟩ := rxByte_emits he
  obtain ⟨-, hlast⟩ := htracks
  have hs := h.wireShaped hb h1 hl
  refine ⟨wf_of_decodeFrame hd, consumed.take (consumed.length - r.cnt.toNat), _, ?_, hs,
    hs.length_of_decodeFrame hd, hd⟩
  rw [hlast, ← List.append_assoc, List.take_append_drop]

/-! ## O28: how many frames -/

/-- How many frames are open: one while collecting, none in AwaitHeader. -/
def RxState.openFrames (r : RxState) : Nat := if r.cnt = 0 then 0 else 1

theorem RxState.openFrames_le (r : RxState) : r.openFrames ≤ 1 := by
  rw [openFrames]; split <;> omega

theorem RxState.openFrames_of_cnt_zero {r : RxState} (h : r.cnt = 0) : r.openFrames = 0 := if_pos h

theorem RxState.openFrames_of_collecting {r : RxState} (h : 1 ≤ r.cnt.toNat) : r.openFrames = 1 :=
  if_neg fun e => by simp [e] at h

/-- A byte opens a frame at most, or emits the one that was open: a frame takes one byte to open and one to close. -/
theorem rxByte_openFrames (r : RxState) (b : Byte) :
    2 * (rxByte r b).2.toList.length + (rxByte r b).1.openFrames ≤ r.openFrames + 1 := by
  cases h : (rxByte r b).2 with
  | none =>
    have := (rxByte r b).1.openFrames_le
    rw [Option.toList_none, List.length_nil]
    omega
  | some f =>
    obtain ⟨-, h1, -, -, hcnt⟩ := rxByte_emits h
    rw [r.openFrames_of_collecting h1, RxState.openFrames_of_cnt_zero hcnt]
    rfl

theorem rxRun_openFrames (r : RxState) (bs : List Byte) :
    2 * (rxRun r bs).2.length + (rxRun r bs).1.openFrames ≤ r.openFrames + bs.length := by
  induction bs generalizing r with
  | nil => simp
  | cons b bs ih =>
    have hone := rxByte_openFrames r b
    have hmore := ih (rxByte r b).1
    rw [rxRun_cons, List.length_append, List.length_cons]
    dsimp only
    omega

/-- Settles O28: every frame takes two bytes, and none is open in AwaitHeader. -/
theorem framesAtMostHalfTheBytes : Obligations.FramesAtMostHalfTheBytes := by
  intro r bs h
  have hbound := rxRun_openFrames r bs
  rw [r.openFrames_of_cnt_zero h] at hbound
  omega

end Sys2Proof.Machine

/-! PROOFS. The receiver's drops (spec/60_exceptions.md R173): under which rule of RXBYTE each label falls, and the statement
O22. -/

namespace Sys2Proof.Machine

/-- A continuation byte is swallowed where it completes the predicted length and DECODE rejects the bytes (R128). -/
theorem RxState.storeSwallows_iff {r : RxState} (h10 : r.cnt.toNat ≤ 10) (b : Byte) :
    r.storeSwallows b = true ↔
      r.cnt.toNat + 1 = r.expectedLen ∧ frameOf (r.contents r.cnt.toNat ++ [b]) = none := by
  simp [RxState.storeSwallows, r.length_contents r.cnt.toNat (by omega)]

/-- Where each drop of R173 happens: each label lies in the domain of one rule of RXBYTE. -/
theorem rxDrop_cases {r : RxState} {b : Byte} {d : Drop} (h : rxDrop r b = some d) :
    (d = .abortByHeader ∧ isHeader b = true ∧ 1 ≤ r.cnt.toNat) ∨
    (d = .discardUnsync ∧ isHeader b = false ∧ r.cnt = 0) ∨
    (d = .overflowDrop ∧ isHeader b = false ∧ 11 ≤ r.cnt.toNat) ∨
    (d = .swallowed ∧ isHeader b = false ∧ 1 ≤ r.cnt.toNat ∧ r.cnt.toNat ≤ 10 ∧
      r.cnt.toNat + 1 = r.expectedLen ∧ frameOf (r.contents r.cnt.toNat ++ [b]) = none) := by
  have hpos : r.cnt ≠ 0 → 1 ≤ r.cnt.toNat := fun hc => Nat.one_le_iff_ne_zero.mpr (mt (cnt_toNat_eq_zero _).mp hc)
  rw [rxDrop] at h
  split_ifs at h with hb hc hc hguard hs <;> cases h
  · exact .inl ⟨rfl, hb, hpos hc⟩
  · exact .inr (.inl ⟨rfl, Bool.eq_false_of_not_eq_true hb, hc⟩)
  · exact .inr (.inr (.inl ⟨rfl, Bool.eq_false_of_not_eq_true hb, hguard⟩))
  · have h10 : r.cnt.toNat ≤ 10 := Nat.le_of_lt_succ (Nat.lt_of_not_le hguard)
    obtain ⟨hl, hnone⟩ := (RxState.storeSwallows_iff h10 b).mp hs
    exact .inr (.inr (.inr ⟨rfl, Bool.eq_false_of_not_eq_true hb, hpos hc, h10, hl, hnone⟩))

/-- Settles O22: each label fixes the rule that takes the byte, and the rule gives the state after. -/
theorem dropsLeaveTheStatedState : Obligations.DropsLeaveTheStatedState := by
  intro r b d h
  obtain ⟨rfl, hb, h1⟩ | ⟨rfl, hb, h0⟩ | ⟨rfl, hb, h11⟩ | ⟨rfl, hb, h1, h10, hl, hnone⟩ := rxDrop_cases h
  · rw [rxByte_header r b hb]
    exact ⟨rfl, nofun, fun _ => ⟨hb, h1, rfl, r.store_written 1 0 b (by omega)⟩, nofun, nofun⟩
  · rw [rxByte_unsync r b hb h0]
    exact ⟨rfl, fun _ => ⟨hb, h0, rfl⟩, nofun, nofun, nofun⟩
  · rw [rxByte_overflow r b hb h11]
    exact ⟨rfl, nofun, nofun, fun _ => ⟨hb, h11, rfl⟩, nofun⟩
  · rw [rxByte_collect r b hb h1 h10, if_pos hl]
    exact ⟨hnone, nofun, nofun, nofun, fun _ => ⟨hb, rfl⟩⟩

end Sys2Proof.Machine

/-! PROOFS. Reset and the hazards of the stream (spec/70_reset_and_hazards.md R190, R191, R195, R200): continuation bytes with
no frame open, frames that follow each other, and the statements O32, O34 and O39. -/

namespace Sys2Proof.Machine

/-- In AwaitHeader continuation bytes are discarded one by one: the receiver stays as it is and emits nothing (R191). -/
theorem rxRun_discards {r : RxState} (hr : r.cnt = 0) {bs : List Byte} (h : ∀ b ∈ bs, isHeader b = false) :
    rxRun r bs = (r, []) := by
  induction bs with
  | nil => exact rxRun_nil r
  | cons b bs ih =>
    obtain ⟨hb, hbs⟩ := List.forall_mem_cons.mp h
    rw [rxRun_cons, rxByte_unsync r b hb hr, ih hbs]
    rfl

/-- A frame row's wire bytes and surplus continuation bytes are received as the row's frame from any receiver (R132, R62). -/
theorem rxRun_wire_surplus (r : RxState) {o : FrameOperands} (ho : o.valid) {surplus : List Byte}
    (h : ∀ b ∈ surplus, isHeader b = false) :
    (rxRun r (o.wire ++ surplus)).2 = [o.frame] ∧ (rxRun r (o.wire ++ surplus)).1.cnt = 0 := by
  obtain ⟨hout, hcnt, -⟩ := rxRun_wire r ho
  rw [rxRun_append, rxRun_discards hcnt h, hout]
  exact ⟨rfl, hcnt⟩

/-- A stream of frames with surplus bytes emits its frames in order. It ends in AwaitHeader, an empty stream where it was
there already. -/
theorem rxRun_stream {stream : List (FrameOperands × List Byte)}
    (h : ∀ x ∈ stream, x.1.valid ∧ ∀ b ∈ x.2, isHeader b = false) {r : RxState} (hr : r.cnt = 0 ∨ stream ≠ []) :
    (rxRun r (stream.flatMap fun x => x.1.wire ++ x.2)).2 = stream.map (fun x => x.1.frame) ∧
      (rxRun r (stream.flatMap fun x => x.1.wire ++ x.2)).1.cnt = 0 := by
  induction stream generalizing r with
  | nil => exact ⟨rfl, hr.resolve_right (· rfl)⟩
  | cons x stream ih =>
    obtain ⟨⟨hvalid, hsurplus⟩, hrest⟩ := List.forall_mem_cons.mp h
    obtain ⟨hfirst, hidle⟩ := rxRun_wire_surplus r hvalid hsurplus
    obtain ⟨hframes, hcnt⟩ := ih hrest (.inl hidle)
    rw [List.flatMap_cons, rxRun_append, hfirst, hframes]
    exact ⟨rfl, hcnt⟩

/-- Settles O34: every frame leaves AwaitHeader to the next, whose bytes are received from there. -/
theorem backToBackFramesInOrder : Obligations.BackToBackFramesInOrder :=
  fun _ _ h hne => rxRun_stream h (.inr hne)

/-- Settles O32: bytes of the wire shape always decode, and the receiver emits what they decode to. -/
theorem shapedBytesAreReceived : Obligations.ShapedBytesAreReceived := by
  intro r w h
  obtain ⟨f, hf, hkind, -⟩ := decodeFrame_of_shape h
  obtain ⟨hout, hcnt, -⟩ := rxRun_wireShaped r h
  rw [frameOf_eq_some.mpr hf] at hout
  rw [List.headD_eq_head?_getD, List.head?_eq_getElem?, ← List.getD_eq_getElem?_getD] at hkind
  exact ⟨f, hf, hkind, hout, hcnt⟩

/-- Settles O39: RESET clears the counter, and from AwaitHeader continuation bytes are discarded. -/
theorem resetForgetsThePartialFrame : Obligations.ResetForgetsThePartialFrame := by
  intro s later h
  exact ⟨_, step_of_pending h, rfl, rfl, rfl, rfl, rfl, rfl, fun bs hbs => rxRun_discards rfl hbs⟩

end Sys2Proof.Machine

/-! PROOFS. How a step is scheduled (spec/43_environment.md) and the frame rows ENCODE rejects (spec/41_decode.md R101,
spec/42_rx_sync.md): the statements O35 and O36. -/

namespace Sys2Proof

/-- Operands that ENCODE rejects have no wire bytes. -/
theorem FrameOperands.wire_of_encodeFrame_err {o : FrameOperands} {e : ValidationError}
    (h : encodeFrame o.kind o.id o.dc o.payload = .err e) : o.wire = [] := by
  rw [FrameOperands.wire, h]

theorem decodeFrame_nil : decodeFrame [] = .err (.short 0) := rfl

namespace Machine

/-- A pass over no bytes leaves the receiver and what it emitted (R130). -/
@[simp] theorem State.receive_nil (s : State) : s.receive [] = s := by
  rw [State.receive, rxRun_nil, List.append_nil]

/-- Settles O35: RX and DEC handle the row's wire bytes, of which there are none. -/
theorem unencodableFrameHasNoWire : Obligations.UnencodableFrameHasNoWire := by
  intro i o s e hi he
  have hwire := FrameOperands.wire_of_encodeFrame_err he
  rw [exec_frameRow s hi]
  constructor <;> intro hs
  · rw [State.frameStep_rx o hs, hwire, State.receive_nil]
  · rw [State.frameStep_dec o hs, hwire, State.decodeCall, decodeFrame_nil]

/-- A step whose input brings an instruction takes the input and runs that instruction. -/
theorem step_of_fetch {s : State} {c : Input} {later : List Input} {i : Instr} (hp : s.pending = c :: later)
    (hf : fetch c = some i) : step s = exec i (s.take c later) := by
  simp only [step, hp, hf]

/-- Settles O36: taking the input moves it out of `pending` and lets its agent move. -/
theorem stepRunsTheFetchedInstruction : Obligations.StepRunsTheFetchedInstruction := by
  intro s c later i hp hf
  rw [step_of_fetch hp hf, State.take]

end Machine

end Sys2Proof
